-- ==== Sys2Proof/Word.lean ====
section
/-! DEFINITION. The word types of the TSIS block (spec/00_scope.md R10, R11): a host register word, the 16-bit sample
and trigger-index half word, the frame-memory byte and its 32-bit byte address, and the 36-bit host transaction. -/

namespace Sys2Proof

/-- A host register value: REG_W = EXP_W = CNT_W = 32 bits (R10). -/
abbrev Word := BitVec 32

/-- A 16-bit value: a raw or packed sample, or the trigger index (R35, R46). -/
abbrev Half := BitVec 16

/-- One frame-memory byte (R84). -/
abbrev Byte := BitVec 8

/-- A frame-memory byte address: ADDR_W = 32 bits (R10, R80). -/
abbrev Addr := BitVec 32

/-- One host transaction `T`: WE in bit 35, IDX in bits 34..32, DATA in bits 31..0 (R110, R111). -/
abbrev Transaction := BitVec 36

end Sys2Proof
end

