-- ==== Sys2Proof/Syntax.lean ====
section
/-! DEFINITION. The host operations of the block, one constructor for each of the 20 rows of spec/opcode_table.json
(spec/30_encoding.md R112, R114, R115). The sequencer's primitives have no encoding and are not instructions. -/

namespace Sys2Proof

/-- One host operation. A register write carries its DATA word (R113), a read carries nothing because its DATA is ignored
(R111), and a reserved command word carries its two fields OP and RSV (R114). -/
inductive Instr where
  /-- NOP, command word 0 (R220). -/
  | nop
  /-- INIT, command word 1 (R170). -/
  | init
  /-- CAPTURE, command word 2 (R190). -/
  | capture
  /-- CLRERR, command word 3 (R222). -/
  | clrerr
  /-- CMD_RSV, any other command word: OP in bits 7..0 and RSV in bits 31..8 (R221). -/
  | cmdRsv (op : BitVec 8) (rsv : BitVec 24)
  /-- RD_CMD (R223). -/
  | rdCmd
  /-- RD_STATUS (R224). -/
  | rdStatus
  /-- RD_EXPOSURE (R226). -/
  | rdExposure
  /-- RD_FRAME_LEN (R228). -/
  | rdFrameLen
  /-- RD_BUF_BASE (R230). -/
  | rdBufBase
  /-- RD_TRIG_CTRL (R232). -/
  | rdTrigCtrl
  /-- RD_PULSE_COUNT (R234). -/
  | rdPulseCount
  /-- RD_FRAME_COUNT (R236). -/
  | rdFrameCount
  /-- WR_STATUS (R225). -/
  | wrStatus (data : Word)
  /-- WR_EXPOSURE (R227). -/
  | wrExposure (data : Word)
  /-- WR_FRAME_LEN (R229). -/
  | wrFrameLen (data : Word)
  /-- WR_BUF_BASE (R231). -/
  | wrBufBase (data : Word)
  /-- WR_TRIG_CTRL (R233). -/
  | wrTrigCtrl (data : Word)
  /-- WR_PULSE_COUNT (R235). -/
  | wrPulseCount (data : Word)
  /-- WR_FRAME_COUNT (R237). -/
  | wrFrameCount (data : Word)
  deriving DecidableEq, Repr

/-- Why a number handed to the decoder is no transaction at all. Every 36-bit transaction decodes (R117), so this is the
only rejection. -/
inductive DecodeReject where
  /-- The number needs more than the 36 bits of a host transaction (R110). -/
  | widerThanATransaction
  deriving DecidableEq, Repr

end Sys2Proof
end

