-- ==== Sys2Proof/WellFormed.lean ====
section
/-! DEFINITION. Which terms of `Instr` stand for a transaction of the block (spec/30_encoding.md R114, R117). -/

namespace Sys2Proof

/-- A command word is reserved when it is none of NOP, INIT, CAPTURE and CLRERR: OP above 3, or RSV not 0 (R114). -/
def reservedCommand (op : BitVec 8) (rsv : BitVec 24) : Bool :=
  decide (rsv ≠ 0#24) || decide (3#8 < op)

/-- The one check on instructions: a CMD_RSV term holds a reserved command word, since the exact rows take priority over
the CMD_RSV row (R117). Every operand of every other row is legal (R112, R113). -/
def WellFormed : Instr → Bool
  | .cmdRsv op rsv => reservedCommand op rsv
  | .nop | .init | .capture | .clrerr => true
  | .rdCmd | .rdStatus | .rdExposure | .rdFrameLen | .rdBufBase | .rdTrigCtrl | .rdPulseCount | .rdFrameCount => true
  | .wrStatus _ | .wrExposure _ | .wrFrameLen _ | .wrBufBase _ | .wrTrigCtrl _ | .wrPulseCount _ | .wrFrameCount _ => true

end Sys2Proof
end

