-- ==== Sys2Proof/Decode.lean ====
section
/-! DEFINITION. The decoder and the encoder of host transactions, both written from spec/30_encoding.md R111, R112, R114
and R115, the host's pseudo-instructions (R119), and the table-word interface the host asks for. -/

namespace Sys2Proof

/-- The descriptor `T[35:32]`: WE and IDX together (R111). -/
def descriptorOf (t : Transaction) : BitVec 4 := t.extractLsb' 32 4

/-- The write data `T[31:0]` (R111). -/
def dataOf (t : Transaction) : Word := t.extractLsb' 0 32

/-- A transaction from its descriptor and its data (R111). -/
def transactionOf (descriptor : BitVec 4) (data : Word) : Transaction := descriptor ++ data

/-- The command a CMD write selects: the whole word decides, and every word but the four listed is reserved (R114). -/
def decodeCommand (w : Word) : Instr :=
  if w = 0#32 then .nop
  else if w = 1#32 then .init
  else if w = 2#32 then .capture
  else if w = 3#32 then .clrerr
  else .cmdRsv (w.extractLsb' 0 8) (w.extractLsb' 8 24)

/-- The decoder: every 36-bit transaction is exactly one host operation (R112, R117). -/
def decode (t : Transaction) : Instr :=
  match (descriptorOf t).toNat with
  | 0 => .rdCmd
  | 1 => .rdStatus
  | 2 => .rdExposure
  | 3 => .rdFrameLen
  | 4 => .rdBufBase
  | 5 => .rdTrigCtrl
  | 6 => .rdPulseCount
  | 7 => .rdFrameCount
  | 8 => decodeCommand (dataOf t)
  | 9 => .wrStatus (dataOf t)
  | 10 => .wrExposure (dataOf t)
  | 11 => .wrFrameLen (dataOf t)
  | 12 => .wrBufBase (dataOf t)
  | 13 => .wrTrigCtrl (dataOf t)
  | 14 => .wrPulseCount (dataOf t)
  | _ => .wrFrameCount (dataOf t)

/-- The decoder on any number: rejected by name when it does not fit the one 36-bit format (R110). -/
def decodeNat (w : Nat) : Except DecodeReject Instr :=
  if w < 2 ^ 36 then .ok (decode (BitVec.ofNat 36 w)) else .error .widerThanATransaction

/-- The encoder. A read's DATA is written as 0, as listings write it (R111). -/
def encode : Instr → Transaction
  | .nop => transactionOf 0x8#4 0#32
  | .init => transactionOf 0x8#4 1#32
  | .capture => transactionOf 0x8#4 2#32
  | .clrerr => transactionOf 0x8#4 3#32
  | .cmdRsv op rsv => transactionOf 0x8#4 (rsv ++ op)
  | .rdCmd => transactionOf 0x0#4 0#32
  | .rdStatus => transactionOf 0x1#4 0#32
  | .rdExposure => transactionOf 0x2#4 0#32
  | .rdFrameLen => transactionOf 0x3#4 0#32
  | .rdBufBase => transactionOf 0x4#4 0#32
  | .rdTrigCtrl => transactionOf 0x5#4 0#32
  | .rdPulseCount => transactionOf 0x6#4 0#32
  | .rdFrameCount => transactionOf 0x7#4 0#32
  | .wrStatus data => transactionOf 0x9#4 data
  | .wrExposure data => transactionOf 0xA#4 data
  | .wrFrameLen data => transactionOf 0xB#4 data
  | .wrBufBase data => transactionOf 0xC#4 data
  | .wrTrigCtrl data => transactionOf 0xD#4 data
  | .wrPulseCount data => transactionOf 0xE#4 data
  | .wrFrameCount data => transactionOf 0xF#4 data

/-- The pseudo-instruction `TRIG idx, en`: `WR TRIG_CTRL, (idx << 16) | en` (R119). -/
def trigPseudo (idx : BitVec 16) (en : Bool) : Instr :=
  .wrTrigCtrl (idx ++ 0#15 ++ BitVec.ofBool en)

/-- The one transaction that the pseudo-instruction `WAITIDLE` repeats; the branch on the value read is the host's own
control flow (R119). -/
def waitIdlePoll : Instr := .rdStatus

/-- The instruction the decoder reads from a table word: a transaction is one unit of 36 bits, so the bits of `w` below
`nbits` are the transaction's bits, every bit above them is 0, and a number that does not fit 36 bits is refused. -/
def decodeTableWord (nbits w : Nat) : Option Instr :=
  (decodeNat (w % 2 ^ nbits)).toOption

end Sys2Proof
end

