-- ==== Sys2Proof/Config.lean ====
section
/-! DEFINITION. The constants the source fixes (spec/00_scope.md R9), the parameters an implementation fixes (R10), and the
draws of the other agents (spec/60_exceptions.md R292, spec/93_implementation_defined.md U7 to U10). Parameters and draws are
opaque: no proof can see a value, so what is proved of the machine holds for every value. -/

namespace Sys2Proof.Config

/-- FLUSH_PULSES (R9). -/
abbrev flushPulses : Nat := 1082

/-- PROP_PULSES (R9). -/
abbrev propPulses : Nat := 1080

/-- READ_ITERS (R9). -/
abbrev readIters : Nat := 640

/-- PACK_SHIFT (R9). -/
abbrev packShift : Nat := 2

/-- CH2_BASE, the frame offset of channel 2's first sample (R9). -/
abbrev ch2Base : Nat := 1280

/-- FRAME_BYTES (R9). -/
abbrev frameBytes : Nat := 2560

/-- The one FRAME_LEN a CAPTURE accepts, FRAME_BYTES as a register word (R44). -/
abbrev frameLenWord : Word := 2560#32

/-- DEFAULT_EXPOSURE_US (R9). -/
abbrev defaultExposureUs : Nat := 500

/-- TRIG_DEFAULT_INDEX (R9). -/
abbrev trigDefaultIndex : Nat := 18

/-- The highest BUF_BASE a CAPTURE accepts, 2^32 - 2560 (R45). -/
abbrev maxBufBase : Word := 0xFFFFF600#32

end Sys2Proof.Config

namespace Sys2Proof

/-- The OPEN parameters of R10, with the ranges the spec gives them. -/
structure Params where
  /-- T_HALF, clock cycles each pin-level action holds. -/
  tHalf : Nat
  /-- CLK_PER_US, clock cycles per microsecond of the exposure timer. -/
  clkPerUs : Nat
  /-- ADC_W, the raw sample width in bits. -/
  adcW : Nat
  /-- REG_BASE, the platform byte address of the 32-byte register window. -/
  regBase : Nat
  tHalf_pos : 1 ≤ tHalf
  clkPerUs_pos : 1 ≤ clkPerUs
  adcW_pos : 1 ≤ adcW
  adcW_le : adcW ≤ 16
  deriving DecidableEq, Repr

/-- What the other agents draw in one clock cycle. -/
structure Draws where
  /-- `smp_valid`: the sampler presents a pair this cycle (R36). -/
  smpValid : Bool
  /-- `smp_a`, the 16-bit port of channel 1 (R31). -/
  smpA : Half
  /-- `smp_b`, the 16-bit port of channel 2 (R31). -/
  smpB : Half
  /-- Whether a reader that races with the running capture sees the old byte, from before the capture, or else the new one
  (R94, U10). -/
  raceOld : Bool
  deriving DecidableEq, Repr

end Sys2Proof

namespace Sys2Proof.Config

/-- T_HALF - 1, OPEN (R10). -/
opaque tHalfPred : Nat

/-- CLK_PER_US - 1, OPEN (R10). -/
opaque clkPerUsPred : Nat

/-- ADC_W - 1, OPEN in 0..15 (R10, R147). -/
opaque adcWPred : Fin 16

/-- REG_BASE, OPEN (R10, R92). -/
opaque regBase : Nat

/-- The parameters of this implementation: any values in the ranges of R10. -/
def params : Params where
  tHalf := tHalfPred + 1
  clkPerUs := clkPerUsPred + 1
  adcW := adcWPred.val + 1
  regBase := regBase
  tHalf_pos := Nat.le_add_left 1 _
  clkPerUs_pos := Nat.le_add_left 1 _
  adcW_pos := Nat.le_add_left 1 _
  adcW_le := adcWPred.isLt

/-- Whether the sampler presents a pair in cycle `n`: the draw L_SMP (R146, U7). -/
opaque smpValid : Nat → Bool

/-- What the sampler's channel-1 port carries in cycle `n` (R146, U8). -/
opaque smpA : Nat → Half

/-- What the sampler's channel-2 port carries in cycle `n` (R146, U8). -/
opaque smpB : Nat → Half

/-- Which of the two admitted bytes a racing frame read of cycle `n` returns (R94, U10). -/
opaque raceOld : Nat → Bool

/-- The byte the frame memory holds at an address nothing has written since reset: arbitrary old contents (R80). -/
opaque oldByte : Addr → Byte

/-- The draws of cycle `n`. -/
def draws (n : Nat) : Draws where
  smpValid := smpValid n
  smpA := smpA n
  smpB := smpB n
  raceOld := raceOld n

end Sys2Proof.Config
end

