-- ==== Sys2Proof/Machine/State.lean ====
section
/-! DEFINITION. The state of the machine as plain data: the block's state (spec/10_state.md R30), the frame memory of the
frame-memory agent (spec/20_memory.md R80), the inputs the other agents are still to apply (R7, R292), and what the last
clock cycle showed on the ports. Faults, refusals, and the state after reset (R52). -/

namespace Sys2Proof.Machine

/-- The FSM states, in the order of their codes 0 to 9 (R34); codes 10 to 15 are never produced. -/
inductive Fsm where
  | idle
  | boot
  | flushA
  | flushSi
  | flushB
  | capSiStart
  | capProp
  | capExpo
  | capSiStop
  | capRead
  deriving DecidableEq, Repr

/-- The trace alphabet (spec/00_scope.md R13). -/
inductive Event where
  /-- CLOCK set to a level. -/
  | clk (level : Bool)
  /-- SI set to a level. -/
  | si (level : Bool)
  /-- The trigger strobe. -/
  | trig
  /-- A sample request answered with a raw pair. -/
  | smp (a b : Half)
  /-- One frame-memory byte write. -/
  | wr (addr : Addr) (data : Byte)
  /-- The exposure wait of `n` microseconds. -/
  | wait (n : Word)
  /-- The command finished and BUSY fell. -/
  | done
  deriving DecidableEq, Repr

/-- The levels of the block's output ports in one cycle, `bus_rdata` apart (R31, R51). -/
structure Ports where
  clkOut : Bool
  siOut : Bool
  trigOut : Bool
  smpReq : Bool
  wrEn : Bool
  wrAddr : Addr
  wrData : Byte
  busy : Bool
  deriving DecidableEq, Repr

/-- The "level in reset" column of R31: every output 0 but `busy`. -/
def Ports.inReset : Ports where
  clkOut := false
  siOut := false
  trigOut := false
  smpReq := false
  wrEn := false
  wrAddr := 0#32
  wrData := 0#8
  busy := true

/-- What the host does at the block's register window in one cycle (R31, R92). -/
inductive Access where
  /-- `bus_en = 0` (R238). -/
  | quiet
  /-- A transaction on the port itself: `bus_en = 1` with the 36 bits of R111. -/
  | transact (t : Transaction)
  /-- An access of `bytes` bytes at a byte address of the platform's map, where the window begins at REG_BASE (R92). -/
  | mapped (we : Bool) (addr : Nat) (bytes : Nat) (data : Word)
  deriving DecidableEq, Repr

/-- What an agent other than the block does to the frame memory in one cycle (R94, R292). -/
inductive FrameAccess where
  | quiet
  | write (addr : Addr) (data : Byte)
  | read (addr : Addr)
  deriving DecidableEq, Repr

/-- The inputs one clock cycle takes from outside the block, the sampler's apart. -/
structure Stimulus where
  /-- The `rst` pin (R31). -/
  rst : Bool
  /-- The host's register access. -/
  access : Access
  /-- Another agent's frame-memory access. -/
  frame : FrameAccess
  deriving DecidableEq, Repr

/-- A cycle in which nothing is applied from outside. -/
def Stimulus.none : Stimulus where
  rst := false
  access := .quiet
  frame := .quiet

/-- The frame memory: address and byte pairs in rising order of address. An address not listed was not written since
reset, and no value is assumed there. -/
abbrev Memory := List Host.Cell

/-- The machine. The block's own state is `st` to `addrErr`; the rest belongs to the agents around it. -/
structure State where
  /-- `st`, the FSM state (R33, R34). -/
  st : Fsm
  /-- `pidx`, clock pulses completed in the current pulse run, 0..1081 (R33). -/
  pidx : Nat
  /-- `iter`, the readout iteration, 0..639 (R33). -/
  iter : Nat
  /-- `sub`, the slot index in the current primitive, 0..6 (R33). -/
  sub : Nat
  /-- `tcnt`, cycles spent in the current phase, 0..T_HALF-1 (R33). -/
  tcnt : Nat
  /-- `SMP_A` (R35). -/
  smpA : Half
  /-- `SMP_B` (R35). -/
  smpB : Half
  /-- `EXP_L`, the latched exposure (R38). -/
  expL : Word
  /-- `BASE_L`, the latched frame base (R38). -/
  baseL : Word
  /-- `TEN_L`, the latched trigger enable (R38). -/
  tenL : Bool
  /-- `TIDX_L`, the latched trigger index (R38). -/
  tidxL : Half
  /-- `us_left`, microseconds still to wait (R39). -/
  usLeft : Word
  /-- `presc`, cycles spent in the current microsecond, 0..CLK_PER_US-1 (R39). -/
  presc : Nat
  /-- EXPOSURE_US (R43). -/
  exposureUs : Word
  /-- FRAME_LEN (R44). -/
  frameLen : Word
  /-- BUF_BASE (R45). -/
  bufBase : Word
  /-- TRIG_CTRL.EN (R46). -/
  trigEn : Bool
  /-- TRIG_CTRL.INDEX (R46). -/
  trigIndex : Half
  /-- PULSE_COUNT (R47). -/
  pulseCount : Word
  /-- FRAME_COUNT (R48). -/
  frameCount : Word
  /-- FLUSHED (R50). -/
  flushed : Bool
  /-- CMD_ERR (R50). -/
  cmdErr : Bool
  /-- LEN_ERR (R50). -/
  lenErr : Bool
  /-- ADDR_ERR (R50). -/
  addrErr : Bool
  /-- `bus_rdata` in the cycle last run (R31, R32). -/
  busRdata : Word
  /-- The other output levels in the cycle last run (R51). -/
  ports : Ports
  /-- The trace events of the cycle last run, in order (R13). -/
  events : List Event
  /-- The frame memory (R80). -/
  mem : Memory
  /-- The frame memory as it stood when the running capture began, which a racing reader may still see (R94). -/
  memBefore : Memory
  /-- The byte the last frame read of another agent returned (R94). -/
  frameRdata : Byte
  /-- The inputs of the cycles to come, the next cycle's first; when it is empty nothing more is applied. -/
  pending : List Stimulus
  /-- The number of the next cycle, which names its draws (the model's own). -/
  tick : Nat
  deriving DecidableEq, Repr

/-- Why the machine stops with a fault. -/
inductive Fault where
  /-- Raised by a clock cycle in which an agent other than the block writes a byte of the frame of the running capture
  (R94, R264). Safe: the run has no meaning in the spec, and the model proves nothing about it. -/
  | frameConflict
  deriving DecidableEq, Repr

/-- Why the machine gives no meaning to what it is asked. -/
inductive Refusal where
  /-- Raised by `exec` for an instruction that has no meaning yet. Safe: nothing is proved about it. No arm raises it. -/
  | notModelled (mnemonic : String)
  /-- Raised by a clock cycle in which the host makes an access to the register window that is not one whole 32-bit word
  (R90, R264). Safe: such an access is not part of the interface. -/
  | subwordAccess
  deriving DecidableEq, Repr

/-- The machine right after reset: R52 for the block, an unwritten frame memory, no input waiting, and the ports at their
levels in reset (R31). -/
def State.reset : State where
  st := .boot
  pidx := 0
  iter := 0
  sub := 0
  tcnt := 0
  smpA := 0#16
  smpB := 0#16
  expL := 0#32
  baseL := 0#32
  tenL := false
  tidxL := 0#16
  usLeft := 0#32
  presc := 0
  exposureUs := BitVec.ofNat 32 Config.defaultExposureUs
  frameLen := Config.frameLenWord
  bufBase := 0#32
  trigEn := false
  trigIndex := BitVec.ofNat 16 Config.trigDefaultIndex
  pulseCount := 0#32
  frameCount := 0#32
  flushed := false
  cmdErr := false
  lenErr := false
  addrErr := false
  busRdata := 0#32
  ports := Ports.inReset
  events := []
  mem := []
  memBefore := []
  frameRdata := 0#8
  pending := []
  tick := 0

end Sys2Proof.Machine
end

