-- ==== Sys2Proof/Machine/Flags.lean ====
section
/-! DEFINITION. The flags and the STATUS word (spec/10_state.md R34, R42, R50) and the operations that raise and clear the
error flags (spec/60_exceptions.md R261, spec/43_host_ops.md R222). -/

namespace Sys2Proof.Machine

/-- The 4-bit code of an FSM state, which STATUS.STATE reports (R34). -/
def Fsm.code : Fsm → BitVec 4
  | .idle => 0
  | .boot => 1
  | .flushA => 2
  | .flushSi => 3
  | .flushB => 4
  | .capSiStart => 5
  | .capProp => 6
  | .capExpo => 7
  | .capSiStop => 8
  | .capRead => 9

/-- The states of a running capture (R34 codes 5 to 9). -/
def Fsm.capturing : Fsm → Bool
  | .capSiStart | .capProp | .capExpo | .capSiStop | .capRead => true
  | .idle | .boot | .flushA | .flushSi | .flushB => false

/-- STATUS.BUSY: `st` is not IDLE (R42, R50). -/
def State.busy (s : State) : Bool := decide (s.st ≠ .idle)

/-- The STATUS word (R42, R224). -/
def State.statusWord (s : State) : Word :=
  0#20 ++ s.st.code ++ 0#3 ++ BitVec.ofBool s.addrErr ++ BitVec.ofBool s.lenErr ++ BitVec.ofBool s.cmdErr
    ++ BitVec.ofBool s.flushed ++ BitVec.ofBool s.busy

/-- `raise CmdErr` (R261). -/
def State.raiseCmdErr (s : State) : State := { s with cmdErr := true }

/-- LEN_ERR and ADDR_ERR raised each where its check failed (R261, R262). -/
def State.raiseArgErrs (s : State) (lenBad addrBad : Bool) : State :=
  { s with lenErr := s.lenErr || lenBad, addrErr := s.addrErr || addrBad }

/-- The three error flags cleared (R222). -/
def State.clearErrs (s : State) : State := { s with cmdErr := false, lenErr := false, addrErr := false }

end Sys2Proof.Machine
end

