-- ==== Sys2Proof/Machine/Slots.lean ====
section
/-! DEFINITION. The slots of the sequencer and the slot tables: which slot the sequencer is in at `(st, sub)`, with the
levels and the event each phase has (spec/40_primitives.md R140 to R143, spec/41_flush.md R173 to R175,
spec/42_capture.md R192 to R196, spec/70_reset_and_hazards.md R321 for BOOT). -/

namespace Sys2Proof.Machine

/-- Which of the four bytes of a readout iteration a write slot stores (R149). -/
inductive Lane where
  | aHigh
  | aLow
  | bHigh
  | bLow
  deriving DecidableEq, Repr

/-- One unit of sequencer work (R140). -/
inductive Slot where
  /-- No slot: IDLE, or a position that is in no slot table. -/
  | none
  /-- PH(c, s), with the one event its line-set action emits (R141). -/
  | phase (c s : Bool) (event : Event)
  /-- TRIGSTROBE (R151). -/
  | trig
  /-- SAMPLE (R146). -/
  | sample
  /-- One byte write of WRITE4 (R149). -/
  | write (lane : Lane)
  /-- WAITUS (R150). -/
  | wait
  deriving DecidableEq, Repr

/-- SIPULSE, the four phases of R143, numbered from 0. -/
def siPulseSlot : Nat → Slot
  | 0 => .phase false true (.si true)
  | 1 => .phase true true (.clk true)
  | 2 => .phase false true (.clk false)
  | 3 => .phase false false (.si false)
  | _ => .none

/-- CLKPULSE, the two phases of R142, numbered 1 and 2 as in every slot table that has them. -/
def clkPulseSlot : Nat → Slot
  | 1 => .phase true false (.clk true)
  | 2 => .phase false false (.clk false)
  | _ => .none

/-- The BOOT table (R171, R321). -/
def bootSlot : Nat → Slot
  | 0 => .phase false false (.si false)
  | 1 => .phase false false (.clk false)
  | _ => .none

/-- The CAP_PROP table (R193). -/
def capPropSlot : Nat → Slot
  | 0 => .trig
  | n => clkPulseSlot n

/-- The CAP_READ table (R196). -/
def capReadSlot : Nat → Slot
  | 0 => .sample
  | 3 => .write .aHigh
  | 4 => .write .aLow
  | 5 => .write .bHigh
  | 6 => .write .bLow
  | n => clkPulseSlot n

/-- The slot at `(st, sub)`. -/
def slotAt : Fsm → Nat → Slot
  | .idle, _ => .none
  | .boot, sub => bootSlot sub
  | .flushA, sub => clkPulseSlot sub
  | .flushSi, sub => siPulseSlot sub
  | .flushB, sub => clkPulseSlot sub
  | .capSiStart, sub => siPulseSlot sub
  | .capProp, sub => capPropSlot sub
  | .capExpo, 0 => .wait
  | .capExpo, _ => .none
  | .capSiStop, sub => siPulseSlot sub
  | .capRead, sub => capReadSlot sub

/-- Whether a slot is a phase with CLOCK high, whose start counts a rising edge (R141). -/
def Slot.startsHigh : Slot → Bool
  | .phase c _ _ => c
  | _ => false

/-- The slot the machine is in. -/
def State.slot (s : State) : Slot := slotAt s.st s.sub

end Sys2Proof.Machine
end

