-- ==== Sys2Proof/Machine/Operands.lean ====
section
/-! DEFINITION. How operands are assembled: the TRIG_CTRL fields (spec/10_state.md R46), the raw sample width and the
packing law (spec/40_primitives.md R147, R148), frame addresses (spec/20_memory.md R81, R83), the CAPTURE checks
(spec/60_exceptions.md R262), and a platform access to the register window (R90, R92). -/

namespace Sys2Proof.Machine

/-- `EN = DATA[0]` (R113). -/
def trigEnOf (data : Word) : Bool := data.getLsbD 0

/-- `INDEX = DATA[31:16]` (R113). -/
def trigIndexOf (data : Word) : Half := data.extractLsb' 16 16

/-- The word TRIG_CTRL reads as (R46, R232). -/
def State.trigCtrlWord (s : State) : Word := s.trigIndex ++ 0#15 ++ BitVec.ofBool s.trigEn

/-- `zext_16(v[ADC_W-1:0])`, the raw value of a sampler port (R146, R147). -/
def rawSample (adcW : Nat) (v : Half) : Half := (v.setWidth adcW).setWidth 16

/-- PACK: `trunc_16(S << 2)` (R148). -/
def packSample (s : Half) : Half := s <<< Config.packShift

/-- The high byte of a packed sample, stored first (R82). -/
def highByte (p : Half) : Byte := p.extractLsb' 8 8

/-- The low byte of a packed sample (R82). -/
def lowByte (p : Half) : Byte := p.extractLsb' 0 8

/-- The frame offset a write slot of iteration `i` stores to (R81). -/
def frameOffset (lane : Lane) (i : Nat) : Nat :=
  match lane with
  | .aHigh => 2 * i
  | .aLow => 2 * i + 1
  | .bHigh => Config.ch2Base + 2 * i
  | .bLow => Config.ch2Base + 2 * i + 1

/-- The byte a write slot stores: channel 1 then channel 2, high byte then low byte (R89). -/
def laneByte (lane : Lane) (a b : Half) : Byte :=
  match lane with
  | .aHigh => highByte (packSample a)
  | .aLow => lowByte (packSample a)
  | .bHigh => highByte (packSample b)
  | .bLow => lowByte (packSample b)

/-- The address the current write slot stores to: `BASE_L + offset` (R83). -/
def State.laneAddr (s : State) (lane : Lane) : Addr := s.baseL + BitVec.ofNat 32 (frameOffset lane s.iter)

/-- The byte the current write slot stores (R149). -/
def State.laneData (s : State) (lane : Lane) : Byte := laneByte lane s.smpA s.smpB

/-- Whether a frame address lies in the frame `[base, base + 2560)` (R87). -/
def inFrame (base : Word) (a : Addr) : Bool :=
  decide (base.toNat ≤ a.toNat) && decide (a.toNat < base.toNat + Config.frameBytes)

/-- Whether the running capture owns a frame-memory byte (R307). -/
def State.owns (s : State) (a : Addr) : Bool := s.st.capturing && inFrame s.baseL a

/-- `lenbad` of R262. -/
def State.lenBad (s : State) : Bool := decide (s.frameLen ≠ Config.frameLenWord)

/-- `addrbad` of R262. -/
def State.addrBad (s : State) : Bool := decide (Config.maxBufBase < s.bufBase)

/-- What an access of the host comes to at the block's port. -/
inductive BusUse where
  /-- `bus_en = 0`. -/
  | idle
  /-- One transaction. -/
  | transaction (t : Transaction)
  /-- An access to the window that is not one whole word (R90). -/
  | subword
  deriving DecidableEq, Repr

/-- An access of the platform's map at the port: outside the window it is no transaction, one aligned word inside it is the
transaction of its index, and any other access that touches the window is sub-word (R90, R92). -/
def mappedUse (regBase : Nat) (we : Bool) (addr bytes : Nat) (data : Word) : BusUse :=
  if addr + bytes ≤ regBase ∨ regBase + 32 ≤ addr ∨ bytes = 0 then .idle
  else if regBase ≤ addr ∧ bytes = 4 ∧ (addr - regBase) % 4 = 0 then
    .transaction (transactionOf (BitVec.ofBool we ++ BitVec.ofNat 3 ((addr - regBase) / 4)) data)
  else .subword

/-- What the host's access comes to at the port (R111, R238). -/
def busUse (p : Params) : Access → BusUse
  | .quiet => .idle
  | .transact t => .transaction t
  | .mapped we addr bytes data => mappedUse p.regBase we addr bytes data

end Sys2Proof.Machine
end

