-- ==== Sys2Proof/Machine/Ops.lean ====
section
/-! DEFINITION. The shared operations: reading and writing the frame memory (spec/20_memory.md R80 to R85), ending a host
transaction, starting a slot (spec/40_primitives.md R141), latching a capture (spec/10_state.md R38), and the machine's
reset. The block takes no exception and returns from none (spec/60_exceptions.md R260, R266, R267): a rejected command
raises its flags and nothing else, which is what stands here in their place. -/

namespace Sys2Proof.Machine

/-- The byte at an address, if anything has written it since reset. -/
def Memory.read : Memory → Addr → Option Byte
  | [], _ => none
  | c :: m, a => if c.1 = a.toNat then some c.2 else Memory.read m a

/-- One byte stored, the list kept in rising order of address (R84). -/
def Memory.write : Memory → Addr → Byte → Memory
  | [], a, b => [(a.toNat, b)]
  | c :: m, a, b =>
    if a.toNat < c.1 then (a.toNat, b) :: c :: m
    else if a.toNat = c.1 then (a.toNat, b) :: m
    else c :: Memory.write m a b

/-- The canonical form: addresses strictly rising and inside the 2^32 bytes of R80. -/
def Memory.wf : Memory → Bool
  | [] => true
  | [c] => decide (c.1 < 2 ^ 32)
  | c :: d :: m => decide (c.1 < d.1) && Memory.wf (d :: m)

/-- The byte a reader of the frame memory sees: what was written, or the arbitrary old byte of that address (R80). -/
def Memory.byte (m : Memory) (a : Addr) : Byte := (m.read a).getD (Config.oldByte a)

/-- What stands on `bus_rdata` in this cycle (R31). -/
def State.drive (s : State) (v : Word) : State := { s with busRdata := v }

/-- The end of a register read: the register stands on `bus_rdata` and no state changes (R238). -/
def State.answer (s : State) (v : Word) : Host.Outcome State Fault Refusal := .next (s.drive v)

/-- The end of a register write: `bus_rdata` is 0 in a cycle that reads nothing (R31). -/
def State.endWrite (s : State) : Host.Outcome State Fault Refusal := .next (s.drive 0#32)

/-- `EXPOSURE_US <- v` (R43). -/
def State.setExposure (s : State) (v : Word) : State := { s with exposureUs := v }

/-- `FRAME_LEN <- v` (R44). -/
def State.setFrameLen (s : State) (v : Word) : State := { s with frameLen := v }

/-- `BUF_BASE <- v` (R45). -/
def State.setBufBase (s : State) (v : Word) : State := { s with bufBase := v }

/-- `EN <- en; INDEX <- index` (R46). -/
def State.setTrig (s : State) (en : Bool) (index : Half) : State := { s with trigEn := en, trigIndex := index }

/-- A slot begins at the next clock edge: the position is set, and a phase with CLOCK high counts its rising edge
(R141, R321). -/
def State.enter (s : State) (st : Fsm) (sub pidx iter : Nat) : State :=
  { s with
    st := st
    sub := sub
    pidx := pidx
    iter := iter
    tcnt := 0
    pulseCount := if (slotAt st sub).startsHigh then s.pulseCount + 1#32 else s.pulseCount }

/-- The configuration copied when a CAPTURE is accepted (R38). -/
def State.latch (s : State) : State :=
  { s with expL := s.exposureUs, baseL := s.bufBase, tenL := s.trigEn, tidxL := s.trigIndex }

/-- FLUSHED written (R50). -/
def State.setFlushed (s : State) (v : Bool) : State := { s with flushed := v }

/-- The sample pair registers take one answer of the sampler (R146). -/
def State.takeSample (s : State) (p : Params) (d : Draws) : State :=
  { s with smpA := rawSample p.adcW d.smpA, smpB := rawSample p.adcW d.smpB }

/-- `MemWrite` of a write slot: the frame-memory agent stores the byte at the end of the cycle (R84). -/
def State.storeLane (s : State) (lane : Lane) : State :=
  { s with mem := Memory.write s.mem (s.laneAddr lane) (s.laneData lane) }

/-- One more cycle spent in the current phase (R141). -/
def State.countPhase (s : State) : State := { s with tcnt := s.tcnt + 1 }

/-- FRAME_COUNT counts a completed capture (R48, R197). -/
def State.countFrame (s : State) : State := { s with frameCount := s.frameCount + 1#32 }

/-- The exposure timer loaded with EXP_L (R150). -/
def State.loadTimer (s : State) : State := { s with usLeft := s.expL, presc := 0 }

/-- One more cycle spent in the current microsecond (R150). -/
def State.countPresc (s : State) : State := { s with presc := s.presc + 1 }

/-- The exposure timer at the end of a microsecond (R150). -/
def State.countUs (s : State) : State := { s with presc := 0, usLeft := s.usLeft - 1#32 }

/-- The inputs of this cycle: the head of the waiting list, or none at all. -/
def State.stimulus (s : State) : Stimulus := s.pending.headD Stimulus.none

/-- The block in its reset state at the end of a cycle with `rst = 1` (R52, R300); the agents around it keep theirs. -/
def State.resetBlock (s : State) : State :=
  { State.reset with
    mem := s.mem
    memBefore := s.memBefore
    frameRdata := s.frameRdata
    pending := s.pending
    tick := s.tick }

/-- The word `w` placed as the next cycle's transaction, in place of what the host would have done in that cycle. -/
def State.placeTransaction (s : State) (t : Transaction) : State :=
  { s with pending := ⟨false, .transact t, .quiet⟩ :: s.pending.tail }

end Sys2Proof.Machine
end

