-- ==== Sys2Proof/Machine/Commands.lean ====
section
/-! DEFINITION. The meanings of the commands, the writes to CMD (spec/41_flush.md R170, spec/42_capture.md R190,
spec/43_host_ops.md R220 to R222), each with its share of the check order of spec/60_exceptions.md R262. -/

namespace Sys2Proof.Machine

/-- NOP: nothing, busy or not (R220). -/
def execNop (s : State) : Host.Outcome State Fault Refusal := s.endWrite

/-- INIT: rejected while BUSY; else FLUSHED falls and FLUSH_A begins with pulse 0 (R170). -/
def execInit (s : State) : Host.Outcome State Fault Refusal :=
  if s.busy then (s.raiseCmdErr).endWrite else ((s.setFlushed false).enter .flushA 1 0 0).endWrite

/-- CAPTURE: rejected while BUSY with CMD_ERR; rejected with LEN_ERR, ADDR_ERR or both where the arguments fail; else the
configuration is latched and the start marker begins (R190, R262). -/
def execCapture (s : State) : Host.Outcome State Fault Refusal :=
  if s.busy then (s.raiseCmdErr).endWrite
  else if s.lenBad || s.addrBad then (s.raiseArgErrs s.lenBad s.addrBad).endWrite
  else ((s.latch).enter .capSiStart 0 0 0).endWrite

/-- CLRERR: the three error flags fall, busy or not (R222). -/
def execClrerr (s : State) : Host.Outcome State Fault Refusal := (s.clearErrs).endWrite

/-- A reserved command word: CMD_ERR and nothing else, whatever OP and RSV are and busy or not (R221). -/
def execCmdRsv (_op : BitVec 8) (_rsv : BitVec 24) (s : State) : Host.Outcome State Fault Refusal :=
  (s.raiseCmdErr).endWrite

end Sys2Proof.Machine
end

