-- ==== Sys2Proof/Machine/RegReads.lean ====
section
/-! DEFINITION. The meanings of the register reads (spec/43_host_ops.md R223, R224, R226, R228, R230, R232, R234, R236):
the value stands on `bus_rdata` in the cycle of the read and no state changes (R238). -/

namespace Sys2Proof.Machine

/-- RD_CMD: CMD holds no value (R41, R223). -/
def execRdCmd (s : State) : Host.Outcome State Fault Refusal := s.answer 0#32

/-- RD_STATUS (R224). -/
def execRdStatus (s : State) : Host.Outcome State Fault Refusal := s.answer s.statusWord

/-- RD_EXPOSURE: the register, not the latched copy (R226). -/
def execRdExposure (s : State) : Host.Outcome State Fault Refusal := s.answer s.exposureUs

/-- RD_FRAME_LEN (R228). -/
def execRdFrameLen (s : State) : Host.Outcome State Fault Refusal := s.answer s.frameLen

/-- RD_BUF_BASE (R230). -/
def execRdBufBase (s : State) : Host.Outcome State Fault Refusal := s.answer s.bufBase

/-- RD_TRIG_CTRL (R232). -/
def execRdTrigCtrl (s : State) : Host.Outcome State Fault Refusal := s.answer s.trigCtrlWord

/-- RD_PULSE_COUNT (R234). -/
def execRdPulseCount (s : State) : Host.Outcome State Fault Refusal := s.answer s.pulseCount

/-- RD_FRAME_COUNT (R236). -/
def execRdFrameCount (s : State) : Host.Outcome State Fault Refusal := s.answer s.frameCount

end Sys2Proof.Machine
end

