-- ==== Sys2Proof/Machine/RegWrites.lean ====
section
/-! DEFINITION. The meanings of the register writes (spec/43_host_ops.md R225, R227, R229, R231, R233, R235, R237). -/

namespace Sys2Proof.Machine

/-- WR_STATUS: nothing (R225). -/
def execWrStatus (_data : Word) (s : State) : Host.Outcome State Fault Refusal := s.endWrite

/-- WR_EXPOSURE: any value, no bounds (R227). -/
def execWrExposure (data : Word) (s : State) : Host.Outcome State Fault Refusal :=
  (s.setExposure data).endWrite

/-- WR_FRAME_LEN: any value, checked only by a later CAPTURE (R229). -/
def execWrFrameLen (data : Word) (s : State) : Host.Outcome State Fault Refusal :=
  (s.setFrameLen data).endWrite

/-- WR_BUF_BASE: any value, aligned or not, checked only by a later CAPTURE (R231). -/
def execWrBufBase (data : Word) (s : State) : Host.Outcome State Fault Refusal :=
  (s.setBufBase data).endWrite

/-- WR_TRIG_CTRL: EN and INDEX, the other bits discarded (R233). -/
def execWrTrigCtrl (data : Word) (s : State) : Host.Outcome State Fault Refusal :=
  (s.setTrig (trigEnOf data) (trigIndexOf data)).endWrite

/-- WR_PULSE_COUNT: nothing (R235). -/
def execWrPulseCount (_data : Word) (s : State) : Host.Outcome State Fault Refusal := s.endWrite

/-- WR_FRAME_COUNT: nothing (R237). -/
def execWrFrameCount (_data : Word) (s : State) : Host.Outcome State Fault Refusal := s.endWrite

end Sys2Proof.Machine
end

