-- ==== Sys2Proof/Machine/Dispatch.lean ====
section
/-! DEFINITION. The meaning of every host operation, one arm per constructor of `Instr`. -/

namespace Sys2Proof.Machine

def exec (i : Instr) (s : State) : Host.Outcome State Fault Refusal :=
  match i with
  | .nop => Sys2Proof.Machine.execNop s
  | .init => Sys2Proof.Machine.execInit s
  | .capture => Sys2Proof.Machine.execCapture s
  | .clrerr => Sys2Proof.Machine.execClrerr s
  | .cmdRsv op rsv => Sys2Proof.Machine.execCmdRsv op rsv s
  | .rdCmd => Sys2Proof.Machine.execRdCmd s
  | .rdStatus => Sys2Proof.Machine.execRdStatus s
  | .rdExposure => Sys2Proof.Machine.execRdExposure s
  | .rdFrameLen => Sys2Proof.Machine.execRdFrameLen s
  | .rdBufBase => Sys2Proof.Machine.execRdBufBase s
  | .rdTrigCtrl => Sys2Proof.Machine.execRdTrigCtrl s
  | .rdPulseCount => Sys2Proof.Machine.execRdPulseCount s
  | .rdFrameCount => Sys2Proof.Machine.execRdFrameCount s
  | .wrStatus data => Sys2Proof.Machine.execWrStatus data s
  | .wrExposure data => Sys2Proof.Machine.execWrExposure data s
  | .wrFrameLen data => Sys2Proof.Machine.execWrFrameLen data s
  | .wrBufBase data => Sys2Proof.Machine.execWrBufBase data s
  | .wrTrigCtrl data => Sys2Proof.Machine.execWrTrigCtrl data s
  | .wrPulseCount data => Sys2Proof.Machine.execWrPulseCount data s
  | .wrFrameCount data => Sys2Proof.Machine.execWrFrameCount data s

end Sys2Proof.Machine
end

