-- ==== Sys2Proof/Machine/Sequencer.lean ====
section
/-! DEFINITION. The sequencer: the "next" entries of the slot tables as `advance`, and the step of the current slot
(spec/40_primitives.md R140 to R152, spec/41_flush.md R173 to R175, spec/42_capture.md R192 to R197,
spec/70_reset_and_hazards.md R321). -/

namespace Sys2Proof.Machine

/-- The sequence ends: IDLE, with the position cleared (R175, R197). -/
def State.finish (s : State) : State := s.enter .idle 0 0 0

/-- The "next" column of an SI pulse run in the state `st`: slots 0 to 3, then whatever follows the marker (R174). -/
def State.advanceSi (s : State) (after : State) : State :=
  if s.sub < 3 then s.enter s.st (s.sub + 1) 0 0 else after

/-- The "next" column of BOOT (R321). -/
def State.advanceBoot (s : State) : State :=
  if s.sub = 0 then s.enter .boot 1 0 0 else s.enter .flushA 1 0 0

/-- The "next" column of a flush run: pulse after pulse, then what follows the run (R173, R175). -/
def State.advanceFlush (s : State) (after : State) : State :=
  if s.sub = 1 then s.enter s.st 2 s.pidx 0
  else if s.pidx + 1 < Config.flushPulses then s.enter s.st 1 (s.pidx + 1) 0
  else after

/-- Propagation pulse `p` begins: at the trigger slot where the strobe fires, else at CLOCK high (R193). -/
def State.beginProp (s : State) (p : Nat) : State :=
  if s.tenL ∧ s.tidxL.toNat = p then s.enter .capProp 0 p 0 else s.enter .capProp 1 p 0

/-- The exposure begins: skipped with no cycle when EXP_L is 0 (R150, R194). -/
def State.beginExposure (s : State) : State :=
  if s.expL = 0#32 then s.enter .capSiStop 0 0 0 else (s.loadTimer).enter .capExpo 0 0 0

/-- The "next" column of CAP_PROP (R193). -/
def State.advanceProp (s : State) : State :=
  if s.sub < 2 then s.enter .capProp (s.sub + 1) s.pidx 0
  else if s.pidx + 1 < Config.propPulses then s.beginProp (s.pidx + 1)
  else s.beginExposure

/-- The "next" column of CAP_READ (R196, R197). -/
def State.advanceRead (s : State) : State :=
  if s.sub < 6 then s.enter .capRead (s.sub + 1) 0 s.iter
  else if s.iter + 1 < Config.readIters then s.enter .capRead 0 0 (s.iter + 1)
  else (s.countFrame).finish

/-- `advance()` of R321: the "next" entry of the current slot. -/
def State.advance (s : State) : State :=
  match s.st with
  | .idle => s
  | .boot => s.advanceBoot
  | .flushA => s.advanceFlush (s.enter .flushSi 0 0 0)
  | .flushSi => s.advanceSi (s.enter .flushB 1 0 0)
  | .flushB => s.advanceFlush ((s.setFlushed true).finish)
  | .capSiStart => s.advanceSi (s.beginProp 0)
  | .capProp => s.advanceProp
  | .capExpo => s.enter .capSiStop 0 0 0
  | .capSiStop => s.advanceSi (s.enter .capRead 0 0 0)
  | .capRead => s.advanceRead

/-- One cycle of a phase: the last of its T_HALF cycles advances (R141, R321). -/
def State.phaseCycle (s : State) (p : Params) : State :=
  if s.tcnt + 1 = p.tHalf then s.advance else s.countPhase

/-- One cycle of the sample handshake: stay until the sampler answers, then take the pair (R146). -/
def State.sampleCycle (s : State) (p : Params) (d : Draws) : State :=
  if d.smpValid then (s.takeSample p d).advance else s

/-- One cycle of a byte write (R149). -/
def State.writeCycle (s : State) (lane : Lane) : State := (s.storeLane lane).advance

/-- One cycle of the exposure wait (R150). -/
def State.waitCycle (s : State) (p : Params) : State :=
  if s.presc + 1 = p.clkPerUs then
    if s.usLeft = 1#32 then (s.countUs).advance else s.countUs
  else s.countPresc

/-- The sequencer's part of a cycle: one cycle of the current slot (R321). With no slot it does nothing. -/
def State.sequence (s : State) (p : Params) (d : Draws) : State :=
  match s.slot with
  | .none => s
  | .phase _ _ _ => s.phaseCycle p
  | .trig => s.advance
  | .sample => s.sampleCycle p d
  | .write lane => s.writeCycle lane
  | .wait => s.waitCycle p

end Sys2Proof.Machine
end

