-- ==== Sys2Proof/Machine/Outputs.lean ====
section
/-! DEFINITION. What a cycle shows outside: the output levels of the current slot (spec/10_state.md R31, R51 and the
slot rules of spec/40_primitives.md) and the trace events of the cycle (spec/00_scope.md R13). -/

namespace Sys2Proof.Machine

/-- All lines low, the level between commands (R51, R153). -/
def State.restPorts (s : State) : Ports where
  clkOut := false
  siOut := false
  trigOut := false
  smpReq := false
  wrEn := false
  wrAddr := 0#32
  wrData := 0#8
  busy := s.busy

/-- The output levels of a cycle with `rst = 0`: a function of the state alone (R32, R51). -/
def State.outputs (s : State) : Ports :=
  match s.slot with
  | .none => s.restPorts
  | .phase c v _ => { s.restPorts with clkOut := c, siOut := v }
  | .trig => { s.restPorts with trigOut := true }
  | .sample => { s.restPorts with smpReq := true }
  | .write lane => { s.restPorts with wrEn := true, wrAddr := s.laneAddr lane, wrData := s.laneData lane }
  | .wait => s.restPorts

/-- The events of the clock edge that ends the current slot: the exposure wait is entered (or skipped) at the end of the
propagation window (R150, R194), and `Done` ends a sequence (R175, R197). -/
def State.endEvents (s : State) : List Event :=
  match s.st with
  | .flushB => if s.sub = 2 ∧ ¬ s.pidx + 1 < Config.flushPulses then [.done] else []
  | .capProp => if s.sub = 2 ∧ ¬ s.pidx + 1 < Config.propPulses then [.wait s.expL] else []
  | .capRead => if s.sub = 6 ∧ ¬ s.iter + 1 < Config.readIters then [.done] else []
  | .idle | .boot | .flushA | .flushSi | .capSiStart | .capExpo | .capSiStop => []

/-- The trace events of one cycle. A phase shows its line-set action in its first cycle (R141). -/
def State.cycleEvents (s : State) (p : Params) (d : Draws) : List Event :=
  match s.slot with
  | .none => []
  | .phase _ _ e => (if s.tcnt = 0 then [e] else []) ++ (if s.tcnt + 1 = p.tHalf then s.endEvents else [])
  | .trig => [.trig]
  | .sample => if d.smpValid then [.smp (rawSample p.adcW d.smpA) (rawSample p.adcW d.smpB)] else []
  | .write lane => .wr (s.laneAddr lane) (s.laneData lane) :: s.endEvents
  | .wait => []

end Sys2Proof.Machine
end

