-- ==== Sys2Proof/Machine/Cycle.lean ====
section
/-! DEFINITION. One clock cycle of the whole machine (spec/70_reset_and_hazards.md R321, spec/10_state.md R32): the host's
transaction, the sequencer's slot, the other agents' frame accesses (spec/20_memory.md R94, spec/60_exceptions.md R264), and
reset, which overrides the block's other inputs (spec/60_exceptions.md R265). -/

namespace Sys2Proof.Machine

/-- Whether this cycle's frame access breaks the ownership of the running capture (R94, R264). -/
def State.conflicts (s : State) (m : Stimulus) : Bool :=
  match m.frame with
  | .write a _ => s.owns a
  | .quiet => false
  | .read _ => false

/-- The frame memory after another agent's access of this cycle. -/
def FrameAccess.apply : FrameAccess → Memory → Memory
  | .write a b, mem => Memory.write mem a b
  | .quiet, mem => mem
  | .read _, mem => mem

/-- The byte a frame read of this cycle returns, where the block's part of the cycle leaves the memory `after`. A byte of the
running capture's frame is a race: its old value, from before the capture, or its new one, with the byte the block writes in
this very cycle among them, as the draw has it (R94, U10). Any other byte is read as it stands. -/
def State.frameReadByte (s : State) (d : Draws) (after : Memory) (a : Addr) : Byte :=
  if s.owns a then (if d.raceOld then s.memBefore.byte a else after.byte a) else s.mem.byte a

/-- What the last frame read returned, after this cycle (R94). -/
def State.nextFrameRdata (s : State) (d : Draws) (m : Stimulus) (after : Memory) : Byte :=
  match m.frame with
  | .read a => s.frameReadByte d after a
  | .quiet => s.frameRdata
  | .write _ _ => s.frameRdata

/-- The agents' part of a cycle that began in `s` and left the block as in `t`: the frame access takes place, the memory
from before the capture is kept while one runs, and the next cycle's inputs come up. -/
def State.settle (s t : State) (d : Draws) (m : Stimulus) : State :=
  { t with
    mem := m.frame.apply t.mem
    memBefore := if s.st.capturing then s.memBefore else m.frame.apply t.mem
    frameRdata := s.nextFrameRdata d m t.mem
    pending := s.pending.tail
    tick := s.tick + 1 }

/-- What the cycle showed on the ports and in the trace. -/
def State.record (s : State) (o : Ports) (e : List Event) : State := { s with ports := o, events := e }

/-- The end of a cycle with `rst = 0` that began in `s` and whose host transaction left `t`: the slot that was running gets
its cycle, and what the cycle showed is recorded (R321). A command accepted in this cycle starts its slot in the next. -/
def State.endCycle (s t : State) (p : Params) (d : Draws) (m : Stimulus) : State :=
  s.settle ((if s.st = .idle then t else t.sequence p d).record s.outputs (s.cycleEvents p d)) d m

/-- A cycle with `rst = 1`: the block is in its reset state after it and shows its reset levels in it (R300). -/
def State.resetCycle (s : State) (d : Draws) (m : Stimulus) : State := s.settle s.resetBlock d m

/-- The host's part of a cycle with `rst = 0` (R238, R321). -/
def State.hostCycle (s : State) (p : Params) (m : Stimulus) : Host.Outcome State Fault Refusal :=
  match busUse p m.access with
  | .idle => .next (s.drive 0#32)
  | .transaction t => exec (decode t) s
  | .subword => .refused .subwordAccess

/-- One clock cycle, for any parameters and any draws of the other agents. -/
def cycle (p : Params) (d : Draws) (s : State) : Host.Outcome State Fault Refusal :=
  if s.conflicts s.stimulus then .fault .frameConflict
  else if s.stimulus.rst then .next (s.resetCycle d s.stimulus)
  else
    match s.hostCycle p s.stimulus with
    | .next t => .next (s.endCycle t p d s.stimulus)
    | .fault r => .fault r
    | .refused r => .refused r

end Sys2Proof.Machine
end

