-- ==== Sys2Proof/Machine/Step.lean ====
section
/-! DEFINITION. The machine's step, one clock cycle with this implementation's parameters and this cycle's draws, and where
a transaction is placed so that the next step runs it. -/

namespace Sys2Proof.Machine

/-- One step: the clock cycle numbered `tick` (spec/00_scope.md R7, spec/70_reset_and_hazards.md R321). -/
def step (s : State) : Host.Outcome State Fault Refusal := cycle Config.params (Config.draws s.tick) s

/-- `s` with the transaction whose bits are `w` waiting as the next cycle's host access: the block fetches nothing (R97),
its host applies a transaction to the bus in each cycle. -/
def State.withFetchWord (s : State) (nbits w : Nat) : State :=
  s.placeTransaction (BitVec.ofNat 36 (w % 2 ^ nbits))

end Sys2Proof.Machine
end

