-- ==== Sys2Proof/Machine/TraceLevel.lean ====
section
/-! DEFINITION. The trace level of the spec (spec/00_scope.md R13, R14): the event lists the flush and the capture are to
produce (spec/41_flush.md R171, R172, spec/42_capture.md R191), the frame they write (spec/20_memory.md R81), and a run of
clock cycles with the events it shows. -/

namespace Sys2Proof.Machine

/-- SIPULSE (R143). -/
def siPulseTrace : List Event := [.si true, .clk true, .clk false, .si false]

/-- CLKPULSE (R142). -/
def clkPulseTrace : List Event := [.clk true, .clk false]

/-- `n` clock pulses with no strobe (R145). -/
def pulsesTrace (n : Nat) : List Event := (List.replicate n clkPulseTrace).flatten

/-- The flush trace (R172). -/
def flushTrace : List Event := pulsesTrace Config.flushPulses ++ siPulseTrace ++ pulsesTrace Config.flushPulses

/-- The trace after reset (R171). -/
def bootTrace : List Event := [.si false, .clk false] ++ flushTrace ++ [.done]

/-- The propagation window: `Trig` before the `Clk(1)` of pulse TIDX_L where the strobe fires (R145, R191). -/
def propTrace (tenL : Bool) (tidxL : Nat) : List Event :=
  if tenL ∧ tidxL < Config.propPulses then
    pulsesTrace tidxL ++ [.trig] ++ pulsesTrace (Config.propPulses - tidxL)
  else pulsesTrace Config.propPulses

/-- The four byte writes of iteration `i` (R149). -/
def write4Trace (base : Word) (i : Nat) (a b : Half) : List Event :=
  [Lane.aHigh, Lane.aLow, Lane.bHigh, Lane.bLow].map fun l =>
    .wr (base + BitVec.ofNat 32 (frameOffset l i)) (laneByte l a b)

/-- READITER(i) for the answer `(a, b)` (R152). -/
def readIterTrace (base : Word) (i : Nat) (ab : Half × Half) : List Event :=
  [.smp ab.1 ab.2] ++ clkPulseTrace ++ write4Trace base i ab.1 ab.2

/-- The readout loop from iteration `i` on, one iteration for each answer of the sampler (R196). -/
def readTraceFrom (base : Word) : Nat → List (Half × Half) → List Event
  | _, [] => []
  | i, ab :: rest => readIterTrace base i ab ++ readTraceFrom base (i + 1) rest

/-- The capture trace for the latched configuration and the sampler's answers (R191). -/
def captureTrace (expL baseL : Word) (tenL : Bool) (tidxL : Half) (answers : List (Half × Half)) : List Event :=
  siPulseTrace ++ propTrace tenL tidxL.toNat ++ [.wait expL] ++ siPulseTrace ++ readTraceFrom baseL 0 answers ++ [.done]

/-- Whether an event is a sample. -/
def Event.isSmp : Event → Bool
  | .smp _ _ => true
  | _ => false

/-- Whether an event is a byte write. -/
def Event.isWr : Event → Bool
  | .wr _ _ => true
  | _ => false

/-- Whether an event is an exposure wait. -/
def Event.isWait : Event → Bool
  | .wait _ => true
  | _ => false

/-- Whether an event sets CLOCK or SI. -/
def Event.isLine : Event → Bool
  | .clk _ | .si _ => true
  | _ => false

/-- The frame memory after the four writes of iteration `i` (R149). -/
def write4 (base : Word) (i : Nat) (a b : Half) (m : Memory) : Memory :=
  [Lane.aHigh, Lane.aLow, Lane.bHigh, Lane.bLow].foldl
    (fun m l => Memory.write m (base + BitVec.ofNat 32 (frameOffset l i)) (laneByte l a b)) m

/-- The frame memory after the readout loop from iteration `i` on (R89). -/
def writeFrameFrom (base : Word) : Nat → List (Half × Half) → Memory → Memory
  | _, [], m => m
  | i, ab :: rest, m => writeFrameFrom base (i + 1) rest (write4 base i ab.1 ab.2 m)

/-- `n` clock cycles with the draws of the stream `d`: the state after them and the events they showed, or none where one
of them stops the machine. -/
def runCycles (p : Params) (d : Nat → Draws) : Nat → State → Option (State × List Event)
  | 0, s => some (s, [])
  | n + 1, s =>
    match cycle p (d s.tick) s with
    | .next t => (runCycles p d n t).map fun r => (r.1, t.events ++ r.2)
    | .fault _ => none
    | .refused _ => none

/-- The cycles by which a capture's trigger strobe lengthens it: the `t` of R327. -/
def strobeCycles (tenL : Bool) (tidxL : Half) : Nat := if tenL ∧ tidxL.toNat < Config.propPulses then 1 else 0

/-- The cycles from the first cycle of a capture to its first sample request (R329, with the strobe's cycle of R193). -/
def requestOffset (p : Params) (expL : Word) (tenL : Bool) (tidxL : Half) : Nat :=
  2168 * p.tHalf + strobeCycles tenL tidxL + expL.toNat * p.clkPerUs

/-- The cycle in which iteration `i` first requests a sample, when the first request of all is in cycle `start` and
iteration `j` has the latency `lat j` (R323). -/
def requestTick (p : Params) (start : Nat) (lat : Nat → Nat) : Nat → Nat
  | 0 => start
  | i + 1 => requestTick p start lat i + (5 + 2 * p.tHalf + lat i)

/-- The sampler answers the requests of the readout loop with the latencies `lat`: L_SMP is the number of cycles of the
sample slot with `smp_valid = 0` (R146). -/
def AnswersAfter (p : Params) (d : Nat → Draws) (start : Nat) (lat : Nat → Nat) : Prop :=
  ∀ i, i < Config.readIters →
    (∀ j, j < lat i → (d (requestTick p start lat i + j)).smpValid = false) ∧
    (d (requestTick p start lat i + lat i)).smpValid = true

/-- The raw pairs the readout loop takes with these latencies, in order (R146). -/
def answersOf (p : Params) (d : Nat → Draws) (start : Nat) (lat : Nat → Nat) : List (Half × Half) :=
  (List.range Config.readIters).map fun i =>
    let n := requestTick p start lat i + lat i
    (rawSample p.adcW (d n).smpA, rawSample p.adcW (d n).smpB)

/-- The cycles of a whole capture (R327). -/
def captureCycles (p : Params) (expL : Word) (tenL : Bool) (tidxL : Half) (lat : Nat → Nat) : Nat :=
  3448 * p.tHalf + 3200 + strobeCycles tenL tidxL + expL.toNat * p.clkPerUs
    + ((List.range Config.readIters).map lat).sum

end Sys2Proof.Machine
end

