-- ==== Sys2Proof/Safety.lean ====
section
/-! DEFINITION. The terms claims use: the invariant of every reachable state (spec/10_state.md R55, with R33, R39 and the
no-wrap fact of spec/20_memory.md R83), the sequencer's part of the state, and the fairness of the sampler
(spec/70_reset_and_hazards.md R322). -/

namespace Sys2Proof.Machine

/-- The position is one the slot tables have: `sub` names a slot of `st`, `pidx` and `iter` are in their ranges there and 0
elsewhere, and the trigger slot stands only before the pulse it belongs to (R55, R193). -/
def State.posOk (s : State) : Prop :=
  match s.st with
  | .idle => s.sub = 0 ∧ s.pidx = 0 ∧ s.iter = 0
  | .boot => s.sub ≤ 1 ∧ s.pidx = 0 ∧ s.iter = 0
  | .flushA => 1 ≤ s.sub ∧ s.sub ≤ 2 ∧ s.pidx < Config.flushPulses ∧ s.iter = 0
  | .flushSi => s.sub ≤ 3 ∧ s.pidx = 0 ∧ s.iter = 0
  | .flushB => 1 ≤ s.sub ∧ s.sub ≤ 2 ∧ s.pidx < Config.flushPulses ∧ s.iter = 0
  | .capSiStart => s.sub ≤ 3 ∧ s.pidx = 0 ∧ s.iter = 0
  | .capProp =>
    s.sub ≤ 2 ∧ s.pidx < Config.propPulses ∧ s.iter = 0 ∧ (s.sub = 0 → s.tenL = true ∧ s.tidxL.toNat = s.pidx)
  | .capExpo => s.sub = 0 ∧ s.pidx = 0 ∧ s.iter = 0
  | .capSiStop => s.sub ≤ 3 ∧ s.pidx = 0 ∧ s.iter = 0
  | .capRead => s.sub ≤ 6 ∧ s.pidx = 0 ∧ s.iter < Config.readIters

/-- Whether a slot is a phase, the only slot that counts cycles in `tcnt`. -/
def Slot.isPhase : Slot → Bool
  | .phase _ _ _ => true
  | _ => false

/-- The invariant of every reachable state. -/
structure State.Inv (p : Params) (s : State) : Prop where
  /-- The position is legal. -/
  pos : s.posOk
  /-- `tcnt < T_HALF` (R55). -/
  tcnt_lt : s.tcnt < p.tHalf
  /-- `tcnt` counts only in a phase (R33). -/
  tcnt_zero : s.slot.isPhase = false → s.tcnt = 0
  /-- `presc < CLK_PER_US` (R55). -/
  presc_lt : s.presc < p.clkPerUs
  /-- In CAP_EXPO at least one microsecond is left and no more than EXP_L (R150). -/
  timer_runs : s.st = .capExpo → s.usLeft ≠ 0#32 ∧ s.usLeft ≤ s.expL
  /-- Outside CAP_EXPO the timer is 0 (R39). -/
  timer_rests : s.st ≠ .capExpo → s.usLeft = 0#32 ∧ s.presc = 0
  /-- A running capture's frame does not wrap (R83). -/
  frame_fits : s.st.capturing = true → s.baseL ≤ Config.maxBufBase
  /-- The frame memory is in its canonical form. -/
  mem_wf : s.mem.wf = true
  /-- So is the copy a racing reader may see. -/
  memBefore_wf : s.memBefore.wf = true

/-- The sampler's duty, over the run from `s`: whenever a sample is requested, the sampler presents a pair in that cycle or
finitely many cycles later (R292, R322). -/
def SamplerFair (p : Params) (d : Nat → Draws) (s : State) : Prop :=
  ∀ n t ev, runCycles p d n s = some (t, ev) → t.outputs.smpReq = true → ∃ k, (d (t.tick + k)).smpValid = true

/-- The part of the state that decides how a running sequence goes on: the position, the sample pair, the latched
configuration, the timer, the counters and FLUSHED (R265). -/
structure SeqView where
  st : Fsm
  pidx : Nat
  iter : Nat
  sub : Nat
  tcnt : Nat
  smpA : Half
  smpB : Half
  expL : Word
  baseL : Word
  tenL : Bool
  tidxL : Half
  usLeft : Word
  presc : Nat
  pulseCount : Word
  frameCount : Word
  flushed : Bool
  deriving DecidableEq, Repr

/-- The sequencer's view of a state. -/
def State.seqView (s : State) : SeqView where
  st := s.st
  pidx := s.pidx
  iter := s.iter
  sub := s.sub
  tcnt := s.tcnt
  smpA := s.smpA
  smpB := s.smpB
  expL := s.expL
  baseL := s.baseL
  tenL := s.tenL
  tidxL := s.tidxL
  usLeft := s.usLeft
  presc := s.presc
  pulseCount := s.pulseCount
  frameCount := s.frameCount
  flushed := s.flushed

/-- The registers and flags that only the host writes (R43 to R46, R50). -/
structure HostView where
  exposureUs : Word
  frameLen : Word
  bufBase : Word
  trigEn : Bool
  trigIndex : Half
  cmdErr : Bool
  lenErr : Bool
  addrErr : Bool
  deriving DecidableEq, Repr

/-- The host's registers and flags of a state. -/
def State.hostView (s : State) : HostView where
  exposureUs := s.exposureUs
  frameLen := s.frameLen
  bufBase := s.bufBase
  trigEn := s.trigEn
  trigIndex := s.trigIndex
  cmdErr := s.cmdErr
  lenErr := s.lenErr
  addrErr := s.addrErr

/-- The host operation of the next cycle, if its access comes to a transaction (R111, R238). -/
def State.hostOp (p : Params) (s : State) : Option Instr :=
  match busUse p s.stimulus.access with
  | .transaction t => some (decode t)
  | .idle => none
  | .subword => none

/-- The next cycle's input is one transaction and nothing else, and nothing is waiting after it. -/
def State.onlyTransaction (s : State) (t : Transaction) : Prop := s.pending = [⟨false, .transact t, .quiet⟩]

end Sys2Proof.Machine
end

