-- ==== Sys2Proof/Certificates/Slice0/Obligations.lean ====
section
/-! DEFINITION. The statements for the provers. Each docstring names the rules of spec/ it formalises. -/

open Sys2Proof Sys2Proof.Machine

/-! ### Encoding -/

/-- R111, R112, R114, R117: decoding what the encoder writes gives the instruction back, for every well-formed one. -/
def Obligations.DecodeEncodeRoundTrip : Prop :=
  ∀ i : Instr, WellFormed i = true → decode (encode i) = i

/-- R111, R117: what the decoder gives is well-formed, and encoding it gives the transaction back, but for the DATA of a
read, which is ignored and written as 0 (the model's choice, log entry 15). -/
def Obligations.EveryTransactionReencodes : Prop :=
  ∀ t : Transaction, WellFormed (decode t) = true ∧
    (t.getLsbD 35 = true → encode (decode t) = t) ∧
    (t.getLsbD 35 = false → encode (decode t) = t &&& 0xF00000000#36)

/-- R112, R114, R117: each row of the opcode table takes exactly the transactions of its match and mask, the exact command
rows before the CMD_RSV row. -/
def Obligations.OpcodeRowsSelectTheirOperation : Prop :=
  ∀ t : Transaction,
    (decode t = .nop ↔ t = 0x800000000#36) ∧ (decode t = .init ↔ t = 0x800000001#36) ∧
    (decode t = .capture ↔ t = 0x800000002#36) ∧ (decode t = .clrerr ↔ t = 0x800000003#36) ∧
    ((∃ op rsv, decode t = .cmdRsv op rsv) ↔
      t &&& 0xF00000000#36 = 0x800000000#36 ∧ t ≠ 0x800000000#36 ∧ t ≠ 0x800000001#36 ∧ t ≠ 0x800000002#36 ∧
        t ≠ 0x800000003#36) ∧
    (decode t = .rdCmd ↔ t &&& 0xF00000000#36 = 0#36) ∧
    (decode t = .rdStatus ↔ t &&& 0xF00000000#36 = 0x100000000#36) ∧
    (decode t = .rdExposure ↔ t &&& 0xF00000000#36 = 0x200000000#36) ∧
    (decode t = .rdFrameLen ↔ t &&& 0xF00000000#36 = 0x300000000#36) ∧
    (decode t = .rdBufBase ↔ t &&& 0xF00000000#36 = 0x400000000#36) ∧
    (decode t = .rdTrigCtrl ↔ t &&& 0xF00000000#36 = 0x500000000#36) ∧
    (decode t = .rdPulseCount ↔ t &&& 0xF00000000#36 = 0x600000000#36) ∧
    (decode t = .rdFrameCount ↔ t &&& 0xF00000000#36 = 0x700000000#36) ∧
    ((∃ v, decode t = .wrStatus v) ↔ t &&& 0xF00000000#36 = 0x900000000#36) ∧
    ((∃ v, decode t = .wrExposure v) ↔ t &&& 0xF00000000#36 = 0xA00000000#36) ∧
    ((∃ v, decode t = .wrFrameLen v) ↔ t &&& 0xF00000000#36 = 0xB00000000#36) ∧
    ((∃ v, decode t = .wrBufBase v) ↔ t &&& 0xF00000000#36 = 0xC00000000#36) ∧
    ((∃ v, decode t = .wrTrigCtrl v) ↔ t &&& 0xF00000000#36 = 0xD00000000#36) ∧
    ((∃ v, decode t = .wrPulseCount v) ↔ t &&& 0xF00000000#36 = 0xE00000000#36) ∧
    ((∃ v, decode t = .wrFrameCount v) ↔ t &&& 0xF00000000#36 = 0xF00000000#36)

/-- R113, R114: a write's operand is DATA, bit for bit, and a reserved command word's fields are OP = DATA[7:0] and
RSV = DATA[31:8]. -/
def Obligations.OperandsAreTheDataBits : Prop :=
  ∀ (v : Word) (op : BitVec 8) (rsv : BitVec 24),
    decode (0x9#4 ++ v) = .wrStatus v ∧ decode (0xA#4 ++ v) = .wrExposure v ∧ decode (0xB#4 ++ v) = .wrFrameLen v ∧
    decode (0xC#4 ++ v) = .wrBufBase v ∧ decode (0xD#4 ++ v) = .wrTrigCtrl v ∧ decode (0xE#4 ++ v) = .wrPulseCount v ∧
    decode (0xF#4 ++ v) = .wrFrameCount v ∧
    (rsv ≠ 0#24 ∨ 3 < op.toNat → decode (0x8#4 ++ (rsv ++ op)) = .cmdRsv op rsv)

/-- R112, R115, R118, R119: words written out in the listing form decode to the operations they stand for. -/
def Obligations.ListedWordsDecode : Prop :=
  decode 0x800000002#36 = .capture ∧ decode 0x800000102#36 = .cmdRsv 0x02#8 0x000001#24 ∧
  decode 0x100000000#36 = .rdStatus ∧ decode 0xA0000000A#36 = .wrExposure 10#32 ∧
  decode 0xD00120001#36 = .wrTrigCtrl 0x00120001#32 ∧ decode 0xD00120001#36 = trigPseudo 18#16 true

/-! ### Host operations -/

/-- R220, R225, R235, R237: NOP and the writes to the read-only registers, each at its encoding, change nothing, busy or
not. -/
def Obligations.NopAndReadOnlyWritesDoNothing : Prop :=
  ∀ (s : State) (v : Word),
    (decode (0x8#4 ++ 0#32) = .nop ∧ decode (0x9#4 ++ v) = .wrStatus v ∧ decode (0xE#4 ++ v) = .wrPulseCount v ∧
      decode (0xF#4 ++ v) = .wrFrameCount v) ∧
    exec .nop s = .next { s with busRdata := 0#32 } ∧ exec (.wrStatus v) s = .next { s with busRdata := 0#32 } ∧
    exec (.wrPulseCount v) s = .next { s with busRdata := 0#32 } ∧
    exec (.wrFrameCount v) s = .next { s with busRdata := 0#32 }

/-- R221: a reserved command word, any written to CMD but 0 to 3, sets CMD_ERR and changes nothing else, busy or not, whatever
OP and RSV are. -/
def Obligations.ReservedCommandSetsCmdErr : Prop :=
  (∀ (s : State) (op : BitVec 8) (rsv : BitVec 24),
    exec (.cmdRsv op rsv) s = .next { s with cmdErr := true, busRdata := 0#32 }) ∧
  ∀ (s : State) (w : Word), 3 < w.toNat →
    exec (decode (0x8#4 ++ w)) s = .next { s with cmdErr := true, busRdata := 0#32 }

/-- R222: CLRERR, CMD word 3, clears the three error flags and changes nothing else, busy or not. -/
def Obligations.ClrerrClearsTheErrorFlags : Prop :=
  decode (0x8#4 ++ 3#32) = .clrerr ∧
  ∀ s : State, exec .clrerr s = .next { s with cmdErr := false, lenErr := false, addrErr := false, busRdata := 0#32 }

/-- R223, R224, R226, R228, R230, R232, R234, R236, R238: each register read, whatever its DATA bits, puts its register on
`bus_rdata` and changes no state. -/
def Obligations.ReadsReturnTheirRegister : Prop :=
  ∀ (s : State) (v : Word),
    (decode (0x0#4 ++ v) = .rdCmd ∧ decode (0x1#4 ++ v) = .rdStatus ∧ decode (0x2#4 ++ v) = .rdExposure ∧
      decode (0x3#4 ++ v) = .rdFrameLen ∧ decode (0x4#4 ++ v) = .rdBufBase ∧ decode (0x5#4 ++ v) = .rdTrigCtrl ∧
      decode (0x6#4 ++ v) = .rdPulseCount ∧ decode (0x7#4 ++ v) = .rdFrameCount) ∧
    exec .rdCmd s = .next { s with busRdata := 0#32 } ∧
    exec .rdStatus s = .next { s with
      busRdata := 0#20 ++ s.st.code ++ 0#3 ++ BitVec.ofBool s.addrErr ++ BitVec.ofBool s.lenErr
        ++ BitVec.ofBool s.cmdErr ++ BitVec.ofBool s.flushed ++ BitVec.ofBool (decide (s.st ≠ .idle)) } ∧
    exec .rdExposure s = .next { s with busRdata := s.exposureUs } ∧
    exec .rdFrameLen s = .next { s with busRdata := s.frameLen } ∧
    exec .rdBufBase s = .next { s with busRdata := s.bufBase } ∧
    exec .rdTrigCtrl s = .next { s with busRdata := s.trigIndex ++ 0#15 ++ BitVec.ofBool s.trigEn } ∧
    exec .rdPulseCount s = .next { s with busRdata := s.pulseCount } ∧
    exec .rdFrameCount s = .next { s with busRdata := s.frameCount }

/-- R227, R229, R231, R233: each register write sets its register from DATA and changes nothing else, busy or not. -/
def Obligations.WritesSetTheirRegister : Prop :=
  ∀ (s : State) (v : Word),
    exec (.wrExposure v) s = .next { s with exposureUs := v, busRdata := 0#32 } ∧
    exec (.wrFrameLen v) s = .next { s with frameLen := v, busRdata := 0#32 } ∧
    exec (.wrBufBase v) s = .next { s with bufBase := v, busRdata := 0#32 } ∧
    exec (.wrTrigCtrl v) s =
      .next { s with trigEn := v.getLsbD 0, trigIndex := v.extractLsb' 16 16, busRdata := 0#32 }

/-- R170: INIT written in IDLE lowers FLUSHED and begins pulse 0 of FLUSH_A, which counts one rising edge. -/
def Obligations.IdleInitStartsTheFlush : Prop :=
  ∀ s : State, s.st = .idle →
    exec .init s = .next { s with
      flushed := false, st := .flushA, sub := 1, pidx := 0, iter := 0, tcnt := 0, pulseCount := s.pulseCount + 1#32,
      busRdata := 0#32 }

/-- R38, R190: CAPTURE written in IDLE with a frame length of 2560 and a base that does not wrap latches the configuration
and begins the start marker. -/
def Obligations.IdleCaptureLatchesAndStarts : Prop :=
  ∀ s : State, s.st = .idle → s.frameLen = 2560#32 → s.bufBase.toNat ≤ 0xFFFFF600 →
    exec .capture s = .next { s with
      expL := s.exposureUs, baseL := s.bufBase, tenL := s.trigEn, tidxL := s.trigIndex,
      st := .capSiStart, sub := 0, pidx := 0, iter := 0, tcnt := 0, busRdata := 0#32 }

/-- R262, R263: the check order of a CMD write of any word: reserved words, then NOP and CLRERR, then busy, then INIT, then
the two CAPTURE checks, reported together; what is rejected changes only the flags it raises. -/
def Obligations.CommandCheckOrder : Prop :=
  ∀ (s : State) (w : Word),
    exec (decode (0x8#4 ++ w)) s = .next (
      if 3 < w.toNat then { s with cmdErr := true, busRdata := 0#32 }
      else if w = 0#32 then { s with busRdata := 0#32 }
      else if w = 3#32 then { s with cmdErr := false, lenErr := false, addrErr := false, busRdata := 0#32 }
      else if s.st ≠ .idle then { s with cmdErr := true, busRdata := 0#32 }
      else if w = 1#32 then
        { s with
          flushed := false, st := .flushA, sub := 1, pidx := 0, iter := 0, tcnt := 0,
          pulseCount := s.pulseCount + 1#32, busRdata := 0#32 }
      else if s.frameLen.toNat ≠ 2560 ∨ 0xFFFFF600 < s.bufBase.toNat then
        { s with
          lenErr := s.lenErr || decide (s.frameLen.toNat ≠ 2560),
          addrErr := s.addrErr || decide (0xFFFFF600 < s.bufBase.toNat), busRdata := 0#32 }
      else
        { s with
          expL := s.exposureUs, baseL := s.bufBase, tenL := s.trigEn, tidxL := s.trigIndex,
          st := .capSiStart, sub := 0, pidx := 0, iter := 0, tcnt := 0, busRdata := 0#32 })

/-- R88, R116, R260, R265: every transaction is carried out, and none of them touches the frame memory, the sample pair, the
timer, FRAME_COUNT or the ports; while a sequence runs, none touches anything the sequence goes by. -/
def Obligations.HostOperationFrame : Prop :=
  ∀ (x : Transaction) (s : State), ∃ t, exec (decode x) s = .next t ∧
    t.mem = s.mem ∧ t.memBefore = s.memBefore ∧ t.frameRdata = s.frameRdata ∧ t.pending = s.pending ∧ t.tick = s.tick ∧
    t.ports = s.ports ∧ t.events = s.events ∧ t.smpA = s.smpA ∧ t.smpB = s.smpB ∧ t.usLeft = s.usLeft ∧
    t.presc = s.presc ∧ t.frameCount = s.frameCount ∧
    (s.st ≠ .idle → t.seqView = s.seqView)

/-- R34, R42: where each field of STATUS stands, that its reserved bits read 0, and that STATE is one of the codes 0 to 9. -/
def Obligations.StatusLayout : Prop :=
  ∀ s : State,
    s.statusWord.getLsbD 0 = decide (s.st ≠ .idle) ∧ s.statusWord.getLsbD 1 = s.flushed ∧
    s.statusWord.getLsbD 2 = s.cmdErr ∧ s.statusWord.getLsbD 3 = s.lenErr ∧ s.statusWord.getLsbD 4 = s.addrErr ∧
    s.statusWord.extractLsb' 5 3 = 0#3 ∧ s.statusWord.extractLsb' 8 4 = s.st.code ∧
    s.statusWord.extractLsb' 12 20 = 0#20 ∧ s.st.code.toNat ≤ 9

/-- R46, R49, R113, R232, R233: TRIG_CTRL reads back what was written with bits 15 to 1 as 0. -/
def Obligations.TrigCtrlReadsBack : Prop :=
  ∀ (s : State) (v : Word), ∃ t u, exec (.wrTrigCtrl v) s = .next t ∧ exec .rdTrigCtrl t = .next u ∧
    u.busRdata = v &&& 0xFFFF0001#32

/-! ### The clock cycle -/

/-- R321: a step whose input is a transaction, with no reset and no broken ownership, is the decoded operation followed by
the end of the cycle; a placed table word is run so by the very next step (the step's form and the placing are the model's, log
entries 1 and 2). -/
def Obligations.StepRunsTheDecodedOperation : Prop :=
  (∀ (s : State) (x : Transaction) (f : FrameAccess) (rest : List Stimulus),
    s.pending = ⟨false, .transact x, f⟩ :: rest → s.conflicts ⟨false, .transact x, f⟩ = false →
    ∃ t, exec (decode x) s = .next t ∧
      step s = .next (s.endCycle t Config.params (Config.draws s.tick) ⟨false, .transact x, f⟩)) ∧
  (∀ (s : State) (nbits w : Nat) (i : Instr), decodeTableWord nbits w = some i →
    ∃ x t, exec i (s.withFetchWord nbits w) = .next t ∧
      step (s.withFetchWord nbits w) =
        .next ((s.withFetchWord nbits w).endCycle t Config.params (Config.draws s.tick) ⟨false, .transact x, .quiet⟩))

/-- R238, R321: an idle block to which nothing is applied stays as it is, all its lines low (the records of the last cycle are
the model's, log entries 7 and 8). -/
def Obligations.QuietIdleCycleChangesNothing : Prop :=
  ∀ (p : Params) (d : Draws) (s : State), s.st = .idle → s.pending = [] →
    cycle p d s = .next { s with
      busRdata := 0#32, events := [], memBefore := s.mem, tick := s.tick + 1,
      ports := ⟨false, false, false, false, false, 0#32, 0#8, false⟩ }

/-- R52: the reset state, every row of the table, and that every cycle with `rst = 1` ends in it. -/
def Obligations.ResetValues : Prop :=
  (∀ (p : Params) (d : Draws) (s t : State), s.stimulus.rst = true → cycle p d s = .next t →
    t.seqView = State.reset.seqView ∧ t.hostView = State.reset.hostView ∧ t.outputs = State.reset.outputs) ∧
  let s := State.reset
  s.st = .boot ∧ s.st.code = 1#4 ∧ s.pidx = 0 ∧ s.iter = 0 ∧ s.sub = 0 ∧ s.tcnt = 0 ∧ s.smpA = 0#16 ∧ s.smpB = 0#16 ∧
  s.expL = 0#32 ∧ s.baseL = 0#32 ∧ s.tidxL = 0#16 ∧ s.tenL = false ∧ s.usLeft = 0#32 ∧ s.presc = 0 ∧
  s.exposureUs = 500#32 ∧ s.frameLen = 2560#32 ∧ s.bufBase = 0#32 ∧ s.trigEn = false ∧ s.trigIndex = 18#16 ∧
  s.pulseCount = 0#32 ∧ s.frameCount = 0#32 ∧ s.busy = true ∧ s.flushed = false ∧ s.cmdErr = false ∧ s.lenErr = false ∧
  s.addrErr = false ∧ s.ports = ⟨false, false, false, false, false, 0#32, 0#8, true⟩ ∧
  s.outputs = ⟨false, false, false, false, false, 0#32, 0#8, true⟩ ∧ s.statusWord = 0x00000101#32

/-- R32, R265, R300: a cycle with `rst = 1` leaves the block in its reset state whatever its other inputs are, writes no
frame byte of its own, emits no event and shows the reset levels; the frame memory changes only by another agent's write (that
the other agents keep their state is the model's choice, log entry 19). -/
def Obligations.ResetOverridesTheCycle : Prop :=
  ∀ (p : Params) (d : Draws) (s : State) (a : Access) (f : FrameAccess) (rest : List Stimulus),
    s.pending = ⟨true, a, f⟩ :: rest → s.conflicts ⟨true, a, f⟩ = false →
    ∃ t, cycle p d s = .next t ∧ t.seqView = State.reset.seqView ∧ t.hostView = State.reset.hostView ∧
      t.busRdata = 0#32 ∧ t.ports = Ports.inReset ∧ t.events = [] ∧ t.pending = rest ∧ t.tick = s.tick + 1 ∧
      ∀ x, Memory.read t.mem x =
        match f with
        | .write y b => if x = y then some b else Memory.read s.mem x
        | .quiet => Memory.read s.mem x
        | .read _ => Memory.read s.mem x

/-- R90, R94, R260, R264: a cycle faults exactly when another agent writes the frame of a running capture, and is refused
exactly when, with no such write and no reset, the host's access is sub-word; in every other cycle the machine goes on (that
these outcomes end the run is the model's form of the fault set, log entries 12 and 13). -/
def Obligations.StopsOnlyOnABrokenDuty : Prop :=
  ∀ (p : Params) (d : Draws) (s : State),
    (∀ r, cycle p d s = .fault r ↔ r = .frameConflict ∧ ∃ a b, s.stimulus.frame = .write a b ∧ 5 ≤ s.st.code.toNat ∧
      s.baseL.toNat ≤ a.toNat ∧ a.toNat < s.baseL.toNat + 2560) ∧
    (∀ r, cycle p d s = .refused r ↔ r = .subwordAccess ∧ s.conflicts s.stimulus = false ∧ s.stimulus.rst = false ∧
      busUse p s.stimulus.access = .subword)

/-- R40, R90, R92: through the platform's map, a word access at REG_BASE + 4·idx is the transaction of index idx, an access
of 1 to 3 bytes inside the window is sub-word, and an access outside the window is no transaction (the treatment of the map is
the model's, log entry 13). -/
def Obligations.RegisterWindowAccesses : Prop :=
  ∀ (p : Params) (we : Bool) (v : Word),
    (∀ idx : BitVec 3, busUse p (.mapped we (p.regBase + 4 * idx.toNat) 4 v) = .transaction (BitVec.ofBool we ++ idx ++ v)) ∧
    (∀ off n, off < 32 → 1 ≤ n → n ≤ 3 → busUse p (.mapped we (p.regBase + off) n v) = .subword) ∧
    (∀ addr n, addr + n ≤ p.regBase ∨ p.regBase + 32 ≤ addr → busUse p (.mapped we addr n v) = .idle)

/-- R94, U10: a frame read that races with the capture that owns the byte returns its old value, from before the capture, or
its new value, as it stands at the end of the cycle, whichever the draw has it; so a read in the very cycle in which the block
writes the byte may return the byte written; any other frame read returns the byte as it stands; and the memory from before the
capture is the memory at the end of the last cycle before the capture began (the form of the draw is the model's, log entry
11). -/
def Obligations.FrameReadRace : Prop :=
  ∀ (p : Params) (d : Draws) (s t : State), cycle p d s = .next t →
    (∀ a, s.stimulus.frame = .read a →
      (s.owns a = true → d.raceOld = true → t.frameRdata = Memory.byte s.memBefore a) ∧
      (s.owns a = true → d.raceOld = false → t.frameRdata = Memory.byte t.mem a) ∧
      (s.owns a = true → d.raceOld = false → s.stimulus.rst = false → ∀ lane, s.slot = .write lane →
        a = s.baseL + BitVec.ofNat 32 (frameOffset lane s.iter) → t.frameRdata = laneByte lane s.smpA s.smpB) ∧
      (s.owns a = false → t.frameRdata = Memory.byte s.mem a)) ∧
    (s.st.capturing = true → t.memBefore = s.memBefore) ∧
    (s.st.capturing = false → t.memBefore = t.mem)

/-- R31, R80, R84, R87, R88, R149, R300: in one cycle a frame byte changes only where the block's write slot stores it (no
reset), at `BASE_L + offset` of the lane and iteration, or where another agent writes it; every other byte reads as before. That
a write slot stores nothing in a cycle with `rst = 1` is read from R31 and R300 (the model's inference, DEDUCED, log entry 19),
and other agents make at most one access in a cycle (the model's choice, log entry 21). -/
def Obligations.CycleChangesOnlyTheWrittenByte : Prop :=
  ∀ (p : Params) (d : Draws) (s t : State), cycle p d s = .next t → ∀ x : Addr,
    (∀ a b, s.stimulus.frame = .write a b → x = a → Memory.read t.mem x = some b) ∧
    ((∀ a b, s.stimulus.frame = .write a b → x ≠ a) → ∀ lane, s.stimulus.rst = false → s.slot = .write lane →
      x = s.baseL + BitVec.ofNat 32 (frameOffset lane s.iter) →
      Memory.read t.mem x = some (laneByte lane s.smpA s.smpB)) ∧
    ((∀ a b, s.stimulus.frame = .write a b → x ≠ a) →
      (∀ lane, s.stimulus.rst = false → s.slot = .write lane →
        x ≠ s.baseL + BitVec.ofNat 32 (frameOffset lane s.iter)) →
      Memory.read t.mem x = Memory.read s.mem x)

/-! ### Invariants -/

/-- R52, R55: the reset state has the invariant, for every value of the parameters. -/
def Obligations.ResetHasTheInvariant : Prop := ∀ p : Params, State.Inv p State.reset

/-- R33, R39, R55, R83: every step keeps the invariant, whatever the host, the sampler and the other agents do. -/
def Obligations.StepKeepsTheInvariant : Prop :=
  ∀ s t : State, State.Inv Config.params s → step s = .next t → State.Inv Config.params t

/-- R51, R55: the write port is active only in CAP_READ, the sample request only in CAP_READ, the trigger only in CAP_PROP;
in IDLE and BOOT every line is low; `wr_addr` and `wr_data` are 0 when `wr_en` is; and `busy` is STATUS.BUSY. -/
def Obligations.OutputsOnlyInTheirStates : Prop :=
  ∀ s : State,
    (s.outputs.wrEn = true → s.st = .capRead) ∧ (s.outputs.smpReq = true → s.st = .capRead) ∧
    (s.outputs.trigOut = true → s.st = .capProp) ∧
    (s.outputs.wrEn = false → s.outputs.wrAddr = 0#32 ∧ s.outputs.wrData = 0#8) ∧
    (s.st = .idle ∨ s.st = .boot → s.outputs = ⟨false, false, false, false, false, 0#32, 0#8, s.busy⟩) ∧
    s.outputs.busy = s.statusWord.getLsbD 0

/-- R144, R311: from one cycle to the next, CLOCK and SI never both change. -/
def Obligations.ClockAndSiNeverChangeTogether : Prop :=
  ∀ (p : Params) (d : Draws) (s t : State), s.stimulus.rst = false → cycle p d s = .next t →
    s.outputs.clkOut = t.outputs.clkOut ∨ s.outputs.siOut = t.outputs.siOut

/-- R47, R141: PULSE_COUNT is 0 at reset, rises by one exactly at the clock edges where CLOCK rises, and else stays, whatever
the host writes. -/
def Obligations.PulseCountCountsRisingEdges : Prop :=
  State.reset.pulseCount = 0#32 ∧
  ∀ (p : Params) (d : Draws) (s t : State), s.stimulus.rst = false → cycle p d s = .next t →
    t.pulseCount = s.pulseCount + (if s.outputs.clkOut = false ∧ t.outputs.clkOut = true then 1#32 else 0#32)

/-- R48, R50, R197: FRAME_COUNT rises by one exactly where CAP_READ gives way to IDLE; FLUSHED falls where the flush begins in
IDLE and rises where FLUSH_B gives way to IDLE; a cycle emits `Done` exactly where BUSY falls. -/
def Obligations.EndsOfSequencesAreCounted : Prop :=
  ∀ (p : Params) (d : Draws) (s t : State), s.stimulus.rst = false → cycle p d s = .next t →
    t.frameCount = s.frameCount + (if s.st = .capRead ∧ t.st = .idle then 1#32 else 0#32) ∧
    t.flushed = (if s.st = .idle ∧ t.st = .flushA then false else if s.st = .flushB ∧ t.st = .idle then true
      else s.flushed) ∧
    (Event.done ∈ t.events ↔ s.st ≠ .idle ∧ t.st = .idle)

/-- R43 to R46, R50, R261, R267: the host's registers change only by their own writes, an error flag rises only by a command
write and falls only by CLRERR; the sequencer changes none of them. -/
def Obligations.HostRegistersChangeOnlyByTheirWrites : Prop :=
  ∀ (p : Params) (d : Draws) (s t : State), s.stimulus.rst = false → cycle p d s = .next t →
    ((∀ v, s.hostOp p ≠ some (.wrExposure v)) → t.exposureUs = s.exposureUs) ∧
    ((∀ v, s.hostOp p ≠ some (.wrFrameLen v)) → t.frameLen = s.frameLen) ∧
    ((∀ v, s.hostOp p ≠ some (.wrBufBase v)) → t.bufBase = s.bufBase) ∧
    ((∀ v, s.hostOp p ≠ some (.wrTrigCtrl v)) → t.trigEn = s.trigEn ∧ t.trigIndex = s.trigIndex) ∧
    (s.hostOp p ≠ some .clrerr →
      (s.cmdErr = true → t.cmdErr = true) ∧ (s.lenErr = true → t.lenErr = true) ∧
      (s.addrErr = true → t.addrErr = true)) ∧
    (s.cmdErr = false → t.cmdErr = true →
      (∃ op rsv, s.hostOp p = some (.cmdRsv op rsv)) ∨
        (s.st ≠ .idle ∧ (s.hostOp p = some .init ∨ s.hostOp p = some .capture))) ∧
    (s.lenErr = false → t.lenErr = true → s.st = .idle ∧ s.hostOp p = some .capture ∧ s.frameLen ≠ 2560#32) ∧
    (s.addrErr = false → t.addrErr = true →
      s.st = .idle ∧ s.hostOp p = some .capture ∧ 0xFFFFF600 < s.bufBase.toNat)

/-- R38, R306: the latched configuration changes only in the cycle that starts a capture, where it is copied from the host's
registers as they stand at the start of that cycle. -/
def Obligations.ConfigurationIsLatchedAtTheStart : Prop :=
  ∀ (p : Params) (d : Draws) (s t : State), s.stimulus.rst = false → cycle p d s = .next t →
    (s.st = .idle → t.st = .capSiStart →
      t.expL = s.exposureUs ∧ t.baseL = s.bufBase ∧ t.tenL = s.trigEn ∧ t.tidxL = s.trigIndex) ∧
    (s.st ≠ .idle ∨ t.st ≠ .capSiStart →
      t.expL = s.expL ∧ t.baseL = s.baseL ∧ t.tenL = s.tenL ∧ t.tidxL = s.tidxL)

/-- R38, R263, R265, R306: while a sequence runs, what the host does in a cycle, its registers and the frame memory change
nothing in how the sequence goes on: two states that agree in what the sequence goes by show the same outputs and events and
agree again after the cycle. -/
def Obligations.RunningSequenceIgnoresTheHost : Prop :=
  ∀ (p : Params) (d : Draws) (s t s' t' : State), s.seqView = t.seqView → s.st ≠ .idle →
    s.stimulus.rst = false → t.stimulus.rst = false → cycle p d s = .next s' → cycle p d t = .next t' →
    s'.seqView = t'.seqView ∧ s'.ports = t'.ports ∧ s'.events = t'.events

/-! ### Primitives -/

/-- R141: a phase holds its levels for T_HALF cycles, `tcnt` counting them, then the next slot begins; its event comes
once (in which cycle is the model's choice, log entry 9). -/
def Obligations.PhaseLastsTHalfCycles : Prop :=
  ∀ (p : Params) (d : Nat → Draws) (s : State) (c v : Bool) (e : Event),
    s.slot = .phase c v e → s.tcnt = 0 → s.pending = [] →
    (∀ k, k < p.tHalf → ∃ t ev, runCycles p d k s = some (t, ev) ∧ t.slot = .phase c v e ∧ t.tcnt = k ∧
      t.outputs.clkOut = c ∧ t.outputs.siOut = v ∧ t.outputs.trigOut = false ∧ t.outputs.smpReq = false ∧
      t.outputs.wrEn = false) ∧
    ∃ t, runCycles p d p.tHalf s = some (t, e :: s.endEvents) ∧ t.seqView = s.advance.seqView

/-- R143, R323: an SI pulse takes 4·T_HALF cycles, SI high in the first three phases and CLOCK high in the second, counts one
rising edge at the second and emits the four events of the rule. -/
def Obligations.SiPulseShape : Prop :=
  ∀ (p : Params) (d : Nat → Draws) (s : State),
    s.st = .flushSi ∨ s.st = .capSiStart ∨ s.st = .capSiStop → s.sub = 0 → s.tcnt = 0 → s.pending = [] →
    (∀ k, k < 4 * p.tHalf → ∃ t ev, runCycles p d k s = some (t, ev) ∧ t.st = s.st ∧
      t.outputs.siOut = decide (k < 3 * p.tHalf) ∧
      t.outputs.clkOut = (decide (p.tHalf ≤ k) && decide (k < 2 * p.tHalf)) ∧
      t.pulseCount = s.pulseCount + (if k < p.tHalf then 0#32 else 1#32)) ∧
    ∃ t, runCycles p d (4 * p.tHalf) s = some (t, [.si true, .clk true, .clk false, .si false]) ∧ t.st ≠ s.st

/-- R142, R323: a clock pulse takes 2·T_HALF cycles, CLOCK high in the first half and SI low throughout. -/
def Obligations.ClockPulseShape : Prop :=
  ∀ (p : Params) (d : Nat → Draws) (s : State),
    s.st = .flushA ∨ s.st = .flushB ∨ s.st = .capProp ∨ s.st = .capRead → s.sub = 1 → s.tcnt = 0 → s.pending = [] →
    (∀ k, k < 2 * p.tHalf → ∃ t ev, runCycles p d k s = some (t, ev) ∧ t.st = s.st ∧
      t.outputs.siOut = false ∧ t.outputs.clkOut = decide (k < p.tHalf)) ∧
    ∃ t ev, runCycles p d (2 * p.tHalf) s = some (t, [.clk true, .clk false] ++ ev) ∧
      ((∀ e, Event.clk e ∉ ev ∧ Event.si e ∉ ev) ∧ (s.st = .capRead → t.st = .capRead ∧ t.sub = 3))

/-- R146, R147: in the sample slot the block waits while `smp_valid` is 0; in the cycle it is 1 it takes the low ADC_W bits of
both ports of that one answer and goes on to CLOCK high. In any other slot the sampler's draw changes nothing. -/
def Obligations.SampleHandshake : Prop :=
  ∀ (p : Params) (d : Draws) (s t : State), s.stimulus.rst = false → cycle p d s = .next t →
    (s.st = .capRead → s.sub = 0 → d.smpValid = false → t.seqView = s.seqView ∧ t.events = []) ∧
    (s.st = .capRead → s.sub = 0 → d.smpValid = true →
      t.smpA.toNat = d.smpA.toNat % 2 ^ p.adcW ∧ t.smpB.toNat = d.smpB.toNat % 2 ^ p.adcW ∧
      t.events = [.smp t.smpA t.smpB] ∧ t.st = .capRead ∧ t.sub = 1 ∧ t.iter = s.iter ∧
      t.pulseCount = s.pulseCount + 1#32) ∧
    (¬ (s.st = .capRead ∧ s.sub = 0) → ∀ d' t', cycle p d' s = .next t' →
      t'.seqView = t.seqView ∧ t'.mem = t.mem ∧ t'.events = t.events ∧ t.smpA = s.smpA ∧ t.smpB = s.smpB)

/-- R310: while the sampler never answers, the block stays in the sample slot with BUSY = 1, whatever is applied to it short of
a reset; undisturbed, it goes on so for ever; and a reset ends it. -/
def Obligations.SilentSamplerHangsTheBlock : Prop :=
  ∀ (p : Params) (d : Nat → Draws) (s : State), s.st = .capRead → s.sub = 0 → (∀ n, (d n).smpValid = false) →
    (∀ n t ev, (∀ m ∈ s.pending, m.rst = false) → runCycles p d n s = some (t, ev) →
      t.seqView = s.seqView ∧ t.st = .capRead ∧ t.sub = 0 ∧ ev = [] ∧ t.busy = true ∧ t.outputs.smpReq = true) ∧
    (s.pending = [] → ∀ n, ∃ t, runCycles p d n s = some (t, [])) ∧
    (∀ t, s.stimulus.rst = true → cycle p (d s.tick) s = .next t → t.st = .boot)

/-- R148: the packing law: `P = trunc_16(S << 2) = S[13:0] followed by 00`, which is 4·S when S has at most 14 bits; the two
bytes are P in big-endian order. -/
def Obligations.PackingLaw : Prop :=
  ∀ S : Half,
    packSample S = S.extractLsb' 0 14 ++ 0#2 ∧ (packSample S).toNat = 4 * S.toNat % 65536 ∧
    (S.toNat < 2 ^ 14 → (packSample S).toNat = 4 * S.toNat) ∧
    highByte (packSample S) ++ lowByte (packSample S) = packSample S ∧
    (highByte (packSample S)).toNat = (packSample S).toNat / 256 ∧
    (lowByte (packSample S)).toNat = (packSample S).toNat % 256

/-- R149, R196, R197: the four write slots take one cycle each, store the four bytes in order, and lead to the next iteration's
sample or to the end of the capture. -/
def Obligations.WriteFourStoresTheIteration : Prop :=
  ∀ (p : Params) (d : Nat → Draws) (s : State), s.st = .capRead → s.sub = 3 → s.pending = [] → s.iter < 640 →
    ∃ t, runCycles p d 4 s = some (t, write4Trace s.baseL s.iter s.smpA s.smpB ++ (if s.iter = 639 then [.done] else [])) ∧
      t.mem = write4 s.baseL s.iter s.smpA s.smpB s.mem ∧
      (s.iter < 639 → t.st = .capRead ∧ t.sub = 0 ∧ t.iter = s.iter + 1 ∧ t.frameCount = s.frameCount) ∧
      (s.iter = 639 → t.st = .idle ∧ t.sub = 0 ∧ t.iter = 0 ∧ t.frameCount = s.frameCount + 1#32) ∧
      t.pulseCount = s.pulseCount

/-- R83: the address of a frame offset is the exact sum: the base of an accepted capture never makes it wrap, and the address of
a write slot is that of its offset. -/
def Obligations.FrameAddressesNeverWrap : Prop :=
  (∀ (base : Word) (off : Nat), base.toNat ≤ 0xFFFFF600 → off < 2560 →
    (base + BitVec.ofNat 32 off).toNat = base.toNat + off ∧ base.toNat + off ≤ 0xFFFFFFFF) ∧
  (∀ (s : State) (lane : Lane), s.baseL.toNat ≤ 0xFFFFF600 → s.iter < 640 →
    frameOffset lane s.iter < 2560 ∧ (s.laneAddr lane).toNat = s.baseL.toNat + frameOffset lane s.iter) ∧
  (∀ (s t : State), s.st = .idle → exec .capture s = .next t → t.st ≠ .idle → t.baseL.toNat ≤ 0xFFFFF600)

/-- R81, R87: every one of the 2560 frame offsets is the offset of exactly one write slot of exactly one iteration. -/
def Obligations.EveryFrameOffsetIsWrittenOnce : Prop :=
  ∀ off, off < 2560 → ∃ lane i, i < 640 ∧ frameOffset lane i = off ∧
    ∀ lane' i', i' < 640 → frameOffset lane' i' = off → lane' = lane ∧ i' = i

/-- R81, R82, R87: after the readout of 640 answers the frame holds each packed sample big-endian at its place, and every byte
outside the frame reads as before. -/
def Obligations.FrameHoldsThePackedSamples : Prop :=
  ∀ (base : Word) (answers : List (Half × Half)) (m : Memory), base.toNat ≤ 0xFFFFF600 → answers.length = 640 →
    (∀ (i : Nat) (a b : Half), answers[i]? = some (a, b) →
      Memory.read (writeFrameFrom base 0 answers m) (base + BitVec.ofNat 32 (2 * i)) = some ((a <<< 2).extractLsb' 8 8) ∧
      Memory.read (writeFrameFrom base 0 answers m) (base + BitVec.ofNat 32 (2 * i + 1)) = some ((a <<< 2).extractLsb' 0 8) ∧
      Memory.read (writeFrameFrom base 0 answers m) (base + BitVec.ofNat 32 (1280 + 2 * i)) = some ((b <<< 2).extractLsb' 8 8) ∧
      Memory.read (writeFrameFrom base 0 answers m) (base + BitVec.ofNat 32 (1281 + 2 * i)) = some ((b <<< 2).extractLsb' 0 8)) ∧
    ∀ x : Addr, x.toNat < base.toNat ∨ base.toNat + 2560 ≤ x.toNat →
      Memory.read (writeFrameFrom base 0 answers m) x = Memory.read m x

/-- R150, R323: the exposure wait of n microseconds takes exactly n·CLK_PER_US cycles with CLOCK and SI low and no event, then
the stop marker begins with the timer at 0. -/
def Obligations.ExposureWaitDuration : Prop :=
  ∀ (p : Params) (d : Nat → Draws) (s : State), s.st = .capExpo → s.sub = 0 → s.presc = 0 → s.usLeft ≠ 0#32 →
    s.pending = [] →
    (∀ k, k < s.usLeft.toNat * p.clkPerUs → ∃ t, runCycles p d k s = some (t, []) ∧ t.st = .capExpo ∧
      t.outputs.clkOut = false ∧ t.outputs.siOut = false) ∧
    ∃ t, runCycles p d (s.usLeft.toNat * p.clkPerUs) s = some (t, []) ∧ t.st = .capSiStop ∧ t.sub = 0 ∧ t.tcnt = 0 ∧
      t.usLeft = 0#32 ∧ t.presc = 0 ∧ t.pulseCount = s.pulseCount

/-- R150, R194: the last cycle of the propagation window emits `Wait(EXP_L)` and leads to CAP_EXPO with the timer loaded, or,
when EXP_L is 0, to the stop marker at once (that the event is shown in this cycle is the model's choice, log entry 9). -/
def Obligations.ExposureBeginsOrIsSkipped : Prop :=
  ∀ (p : Params) (d : Draws) (s t : State), s.stimulus.rst = false → cycle p d s = .next t →
    s.st = .capProp → s.sub = 2 → s.pidx = 1079 → s.tcnt + 1 = p.tHalf →
    Event.wait s.expL ∈ t.events ∧ t.sub = 0 ∧ t.pidx = 0 ∧ t.tcnt = 0 ∧
    (s.expL = 0#32 → t.st = .capSiStop) ∧
    (s.expL ≠ 0#32 → t.st = .capExpo ∧ t.usLeft = s.expL ∧ t.presc = 0)

/-- R46, R145, R151, R193: the strobe is up for the one cycle of the trigger slot, only with TEN_L set and before the CLOCK
rising edge of propagation pulse TIDX_L; each propagation pulse begins at the trigger slot exactly where it fires. -/
def Obligations.TriggerStrobeFiresBeforeItsPulse : Prop :=
  ∀ (p : Params) (d : Draws) (s t : State), State.Inv p s → s.stimulus.rst = false → cycle p d s = .next t →
    (s.outputs.trigOut = true → s.tenL = true ∧ s.tidxL.toNat = s.pidx ∧ s.pidx < 1080 ∧ t.events = [.trig] ∧
      t.st = .capProp ∧ t.sub = 1 ∧ t.pidx = s.pidx ∧ t.outputs.clkOut = true ∧ t.outputs.trigOut = false) ∧
    (s.st = .capProp → s.sub = 2 → s.tcnt + 1 = p.tHalf → s.pidx < 1079 →
      t.st = .capProp ∧ t.pidx = s.pidx + 1 ∧
      t.sub = (if s.tenL = true ∧ s.tidxL.toNat = s.pidx + 1 then 0 else 1)) ∧
    (s.st = .capSiStart → s.sub = 3 → s.tcnt + 1 = p.tHalf →
      t.st = .capProp ∧ t.pidx = 0 ∧ t.sub = (if s.tenL = true ∧ s.tidxL.toNat = 0 then 0 else 1))

/-! ### Whole sequences -/

/-- R171, R172, R177, R301, R326: with nothing applied from outside, the block goes from its reset state through BOOT and the
flush to IDLE in exactly 4334·T_HALF cycles, with the trace of the rule, FLUSHED set and 2165 rising edges counted; BUSY is 1
in every cycle before. -/
def Obligations.BootFlush : Prop :=
  ∀ (p : Params) (d : Nat → Draws) (s : State), s.seqView = State.reset.seqView → s.pending = [] →
    (∃ t, runCycles p d (4334 * p.tHalf) s = some (t, bootTrace) ∧ t.st = .idle ∧ t.sub = 0 ∧ t.pidx = 0 ∧ t.tcnt = 0 ∧
      t.flushed = true ∧ t.pulseCount = 2165#32 ∧ t.frameCount = 0#32 ∧ t.hostView = s.hostView ∧ t.mem = s.mem) ∧
    ∀ k, k < 4334 * p.tHalf → ∃ t ev, runCycles p d k s = some (t, ev) ∧ t.busy = true

/-- R170, R172, R324, R325: an accepted INIT runs the flush in exactly 4332·T_HALF cycles after its own, with the trace of the
rule, 2165 rising edges counted and FLUSHED set at the end, and changes no other register, flag or frame byte. -/
def Obligations.InitRunsTheFlush : Prop :=
  ∀ (p : Params) (d : Nat → Draws) (s : State), s.st = .idle → s.onlyTransaction 0x800000001#36 →
    (∃ t, runCycles p d (1 + 4332 * p.tHalf) s = some (t, flushTrace ++ [.done]) ∧ t.st = .idle ∧ t.flushed = true ∧
      t.pulseCount = s.pulseCount + 2165#32 ∧ t.frameCount = s.frameCount ∧ t.hostView = s.hostView ∧ t.mem = s.mem) ∧
    ∀ k, 1 ≤ k → k < 1 + 4332 * p.tHalf → ∃ t ev, runCycles p d k s = some (t, ev) ∧ t.busy = true

/-- R190, R191, R198, R324, R327: an accepted CAPTURE runs to `Done` in exactly the cycles of R327 for the sampler's latencies,
with the trace of R191 for its answers, 1722 rising edges and one frame counted, the frame written from the answers, and no
other register, flag or frame byte changed. -/
def Obligations.CaptureRunsToDone : Prop :=
  ∀ (p : Params) (d : Nat → Draws) (s : State) (lat : Nat → Nat),
    s.st = .idle → s.frameLen = 2560#32 → s.bufBase.toNat ≤ 0xFFFFF600 →
    s.onlyTransaction 0x800000002#36 →
    AnswersAfter p d (s.tick + 1 + requestOffset p s.exposureUs s.trigEn s.trigIndex) lat →
    let answers := answersOf p d (s.tick + 1 + requestOffset p s.exposureUs s.trigEn s.trigIndex) lat
    (∃ t, runCycles p d (1 + captureCycles p s.exposureUs s.trigEn s.trigIndex lat) s =
        some (t, captureTrace s.exposureUs s.bufBase s.trigEn s.trigIndex answers) ∧
      t.st = .idle ∧ t.pulseCount = s.pulseCount + 1722#32 ∧ t.frameCount = s.frameCount + 1#32 ∧
      t.flushed = s.flushed ∧ t.hostView = s.hostView ∧ t.mem = writeFrameFrom s.bufBase 0 answers s.mem) ∧
    ∀ k, 1 ≤ k → k < 1 + captureCycles p s.exposureUs s.trigEn s.trigIndex lat →
      ∃ t ev, runCycles p d k s = some (t, ev) ∧ t.busy = true

/-- R172, R177: the flush trace has 4332 line events, 2165 CLOCK rising edges and one SI pulse, and nothing else. -/
def Obligations.FlushTraceCounts : Prop :=
  flushTrace.length = 4332 ∧ flushTrace.countP Event.isLine = 4332 ∧ flushTrace.count (.clk true) = 2165 ∧
  flushTrace.count (.si true) = 1

/-- R198: the counts of a capture's trace, whatever the configuration and the sampler's 640 answers are. -/
def Obligations.CaptureTraceCounts : Prop :=
  ∀ (expL baseL : Word) (tenL : Bool) (tidxL : Half) (answers : List (Half × Half)), answers.length = 640 →
    let ev := captureTrace expL baseL tenL tidxL answers
    ev.countP Event.isSmp = 640 ∧ ev.count (.clk true) = 1722 ∧ ev.count (.si true) = 2 ∧ ev.countP Event.isWr = 2560 ∧
    ev.count .trig = (if tenL = true ∧ tidxL.toNat < 1080 then 1 else 0) ∧ ev.countP Event.isWait = 1 ∧
    ev.count (.wait expL) = 1 ∧ ev.count .done = 1 ∧ ev.getLast? = some .done ∧
    (readTraceFrom baseL 0 answers).count (.clk true) = 640

/-- R201: two captures with the same configuration and the same list of sampler answers show the same trace and leave the
same frame bytes, whatever the latencies, the parameters and the rest of the two states are. -/
def Obligations.CaptureIsDetermined : Prop :=
  ∀ (p p' : Params) (d d' : Nat → Draws) (s s' : State) (lat lat' : Nat → Nat),
    s.st = .idle → s'.st = .idle → s.frameLen = 2560#32 → s'.frameLen = 2560#32 → s.bufBase.toNat ≤ 0xFFFFF600 →
    s.onlyTransaction 0x800000002#36 → s'.onlyTransaction 0x800000002#36 →
    s.exposureUs = s'.exposureUs → s.bufBase = s'.bufBase → s.trigEn = s'.trigEn → s.trigIndex = s'.trigIndex →
    AnswersAfter p d (s.tick + 1 + requestOffset p s.exposureUs s.trigEn s.trigIndex) lat →
    AnswersAfter p' d' (s'.tick + 1 + requestOffset p' s'.exposureUs s'.trigEn s'.trigIndex) lat' →
    answersOf p d (s.tick + 1 + requestOffset p s.exposureUs s.trigEn s.trigIndex) lat =
      answersOf p' d' (s'.tick + 1 + requestOffset p' s'.exposureUs s'.trigEn s'.trigIndex) lat' →
    ∃ t t' ev,
      runCycles p d (1 + captureCycles p s.exposureUs s.trigEn s.trigIndex lat) s = some (t, ev) ∧
      runCycles p' d' (1 + captureCycles p' s'.exposureUs s'.trigEn s'.trigIndex lat') s' = some (t', ev) ∧
      t.st = .idle ∧ t'.st = .idle ∧ Event.done ∈ ev ∧
      ∀ x : Addr, s.bufBase.toNat ≤ x.toNat → x.toNat < s.bufBase.toNat + 2560 →
        Memory.read t.mem x = Memory.read t'.mem x ∧ (Memory.read t.mem x).isSome

/-- R199, R322: with a sampler that answers every request after finitely many cycles, every running sequence reaches `Done`
and IDLE (fairness is a hypothesis, log entry 17). -/
def Obligations.FairSamplerBringsEverySequenceToDone : Prop :=
  ∀ (p : Params) (d : Nat → Draws) (s : State), State.Inv p s → s.st ≠ .idle → s.pending = [] → SamplerFair p d s →
    ∃ n t ev, runCycles p d n s = some (t, ev ++ [.done]) ∧ t.st = .idle ∧ Event.done ∉ ev
end

