-- ==== Sys2Proof/Laws/State.lean ====
section
/-! SUPPORT. One lemma per field and named update of `State`, each true by `rfl`, so that no proof unfolds an update. -/

namespace Sys2Proof.Machine

variable (s : State)

/-! ### `raise CmdErr` (R261) -/

@[simp] theorem State.raiseCmdErr_st : s.raiseCmdErr.st = s.st := rfl
@[simp] theorem State.raiseCmdErr_pidx : s.raiseCmdErr.pidx = s.pidx := rfl
@[simp] theorem State.raiseCmdErr_iter : s.raiseCmdErr.iter = s.iter := rfl
@[simp] theorem State.raiseCmdErr_sub : s.raiseCmdErr.sub = s.sub := rfl
@[simp] theorem State.raiseCmdErr_tcnt : s.raiseCmdErr.tcnt = s.tcnt := rfl
@[simp] theorem State.raiseCmdErr_smpA : s.raiseCmdErr.smpA = s.smpA := rfl
@[simp] theorem State.raiseCmdErr_smpB : s.raiseCmdErr.smpB = s.smpB := rfl
@[simp] theorem State.raiseCmdErr_expL : s.raiseCmdErr.expL = s.expL := rfl
@[simp] theorem State.raiseCmdErr_baseL : s.raiseCmdErr.baseL = s.baseL := rfl
@[simp] theorem State.raiseCmdErr_tenL : s.raiseCmdErr.tenL = s.tenL := rfl
@[simp] theorem State.raiseCmdErr_tidxL : s.raiseCmdErr.tidxL = s.tidxL := rfl
@[simp] theorem State.raiseCmdErr_usLeft : s.raiseCmdErr.usLeft = s.usLeft := rfl
@[simp] theorem State.raiseCmdErr_presc : s.raiseCmdErr.presc = s.presc := rfl
@[simp] theorem State.raiseCmdErr_exposureUs : s.raiseCmdErr.exposureUs = s.exposureUs := rfl
@[simp] theorem State.raiseCmdErr_frameLen : s.raiseCmdErr.frameLen = s.frameLen := rfl
@[simp] theorem State.raiseCmdErr_bufBase : s.raiseCmdErr.bufBase = s.bufBase := rfl
@[simp] theorem State.raiseCmdErr_trigEn : s.raiseCmdErr.trigEn = s.trigEn := rfl
@[simp] theorem State.raiseCmdErr_trigIndex : s.raiseCmdErr.trigIndex = s.trigIndex := rfl
@[simp] theorem State.raiseCmdErr_pulseCount : s.raiseCmdErr.pulseCount = s.pulseCount := rfl
@[simp] theorem State.raiseCmdErr_frameCount : s.raiseCmdErr.frameCount = s.frameCount := rfl
@[simp] theorem State.raiseCmdErr_flushed : s.raiseCmdErr.flushed = s.flushed := rfl
@[simp] theorem State.raiseCmdErr_cmdErr : s.raiseCmdErr.cmdErr = true := rfl
@[simp] theorem State.raiseCmdErr_lenErr : s.raiseCmdErr.lenErr = s.lenErr := rfl
@[simp] theorem State.raiseCmdErr_addrErr : s.raiseCmdErr.addrErr = s.addrErr := rfl
@[simp] theorem State.raiseCmdErr_busRdata : s.raiseCmdErr.busRdata = s.busRdata := rfl
@[simp] theorem State.raiseCmdErr_ports : s.raiseCmdErr.ports = s.ports := rfl
@[simp] theorem State.raiseCmdErr_events : s.raiseCmdErr.events = s.events := rfl
@[simp] theorem State.raiseCmdErr_mem : s.raiseCmdErr.mem = s.mem := rfl
@[simp] theorem State.raiseCmdErr_memBefore : s.raiseCmdErr.memBefore = s.memBefore := rfl
@[simp] theorem State.raiseCmdErr_frameRdata : s.raiseCmdErr.frameRdata = s.frameRdata := rfl
@[simp] theorem State.raiseCmdErr_pending : s.raiseCmdErr.pending = s.pending := rfl
@[simp] theorem State.raiseCmdErr_tick : s.raiseCmdErr.tick = s.tick := rfl

/-! ### `raise LenErr`, `raise AddrErr` (R261) -/

@[simp] theorem State.raiseArgErrs_st (l a : Bool) : (s.raiseArgErrs l a).st = s.st := rfl
@[simp] theorem State.raiseArgErrs_pidx (l a : Bool) : (s.raiseArgErrs l a).pidx = s.pidx := rfl
@[simp] theorem State.raiseArgErrs_iter (l a : Bool) : (s.raiseArgErrs l a).iter = s.iter := rfl
@[simp] theorem State.raiseArgErrs_sub (l a : Bool) : (s.raiseArgErrs l a).sub = s.sub := rfl
@[simp] theorem State.raiseArgErrs_tcnt (l a : Bool) : (s.raiseArgErrs l a).tcnt = s.tcnt := rfl
@[simp] theorem State.raiseArgErrs_smpA (l a : Bool) : (s.raiseArgErrs l a).smpA = s.smpA := rfl
@[simp] theorem State.raiseArgErrs_smpB (l a : Bool) : (s.raiseArgErrs l a).smpB = s.smpB := rfl
@[simp] theorem State.raiseArgErrs_expL (l a : Bool) : (s.raiseArgErrs l a).expL = s.expL := rfl
@[simp] theorem State.raiseArgErrs_baseL (l a : Bool) : (s.raiseArgErrs l a).baseL = s.baseL := rfl
@[simp] theorem State.raiseArgErrs_tenL (l a : Bool) : (s.raiseArgErrs l a).tenL = s.tenL := rfl
@[simp] theorem State.raiseArgErrs_tidxL (l a : Bool) : (s.raiseArgErrs l a).tidxL = s.tidxL := rfl
@[simp] theorem State.raiseArgErrs_usLeft (l a : Bool) : (s.raiseArgErrs l a).usLeft = s.usLeft := rfl
@[simp] theorem State.raiseArgErrs_presc (l a : Bool) : (s.raiseArgErrs l a).presc = s.presc := rfl
@[simp] theorem State.raiseArgErrs_exposureUs (l a : Bool) : (s.raiseArgErrs l a).exposureUs = s.exposureUs := rfl
@[simp] theorem State.raiseArgErrs_frameLen (l a : Bool) : (s.raiseArgErrs l a).frameLen = s.frameLen := rfl
@[simp] theorem State.raiseArgErrs_bufBase (l a : Bool) : (s.raiseArgErrs l a).bufBase = s.bufBase := rfl
@[simp] theorem State.raiseArgErrs_trigEn (l a : Bool) : (s.raiseArgErrs l a).trigEn = s.trigEn := rfl
@[simp] theorem State.raiseArgErrs_trigIndex (l a : Bool) : (s.raiseArgErrs l a).trigIndex = s.trigIndex := rfl
@[simp] theorem State.raiseArgErrs_pulseCount (l a : Bool) : (s.raiseArgErrs l a).pulseCount = s.pulseCount := rfl
@[simp] theorem State.raiseArgErrs_frameCount (l a : Bool) : (s.raiseArgErrs l a).frameCount = s.frameCount := rfl
@[simp] theorem State.raiseArgErrs_flushed (l a : Bool) : (s.raiseArgErrs l a).flushed = s.flushed := rfl
@[simp] theorem State.raiseArgErrs_cmdErr (l a : Bool) : (s.raiseArgErrs l a).cmdErr = s.cmdErr := rfl
@[simp] theorem State.raiseArgErrs_lenErr (l a : Bool) : (s.raiseArgErrs l a).lenErr = (s.lenErr || l) := rfl
@[simp] theorem State.raiseArgErrs_addrErr (l a : Bool) : (s.raiseArgErrs l a).addrErr = (s.addrErr || a) := rfl
@[simp] theorem State.raiseArgErrs_busRdata (l a : Bool) : (s.raiseArgErrs l a).busRdata = s.busRdata := rfl
@[simp] theorem State.raiseArgErrs_ports (l a : Bool) : (s.raiseArgErrs l a).ports = s.ports := rfl
@[simp] theorem State.raiseArgErrs_events (l a : Bool) : (s.raiseArgErrs l a).events = s.events := rfl
@[simp] theorem State.raiseArgErrs_mem (l a : Bool) : (s.raiseArgErrs l a).mem = s.mem := rfl
@[simp] theorem State.raiseArgErrs_memBefore (l a : Bool) : (s.raiseArgErrs l a).memBefore = s.memBefore := rfl
@[simp] theorem State.raiseArgErrs_frameRdata (l a : Bool) : (s.raiseArgErrs l a).frameRdata = s.frameRdata := rfl
@[simp] theorem State.raiseArgErrs_pending (l a : Bool) : (s.raiseArgErrs l a).pending = s.pending := rfl
@[simp] theorem State.raiseArgErrs_tick (l a : Bool) : (s.raiseArgErrs l a).tick = s.tick := rfl

/-! ### CLRERR (R222) -/

@[simp] theorem State.clearErrs_st : s.clearErrs.st = s.st := rfl
@[simp] theorem State.clearErrs_pidx : s.clearErrs.pidx = s.pidx := rfl
@[simp] theorem State.clearErrs_iter : s.clearErrs.iter = s.iter := rfl
@[simp] theorem State.clearErrs_sub : s.clearErrs.sub = s.sub := rfl
@[simp] theorem State.clearErrs_tcnt : s.clearErrs.tcnt = s.tcnt := rfl
@[simp] theorem State.clearErrs_smpA : s.clearErrs.smpA = s.smpA := rfl
@[simp] theorem State.clearErrs_smpB : s.clearErrs.smpB = s.smpB := rfl
@[simp] theorem State.clearErrs_expL : s.clearErrs.expL = s.expL := rfl
@[simp] theorem State.clearErrs_baseL : s.clearErrs.baseL = s.baseL := rfl
@[simp] theorem State.clearErrs_tenL : s.clearErrs.tenL = s.tenL := rfl
@[simp] theorem State.clearErrs_tidxL : s.clearErrs.tidxL = s.tidxL := rfl
@[simp] theorem State.clearErrs_usLeft : s.clearErrs.usLeft = s.usLeft := rfl
@[simp] theorem State.clearErrs_presc : s.clearErrs.presc = s.presc := rfl
@[simp] theorem State.clearErrs_exposureUs : s.clearErrs.exposureUs = s.exposureUs := rfl
@[simp] theorem State.clearErrs_frameLen : s.clearErrs.frameLen = s.frameLen := rfl
@[simp] theorem State.clearErrs_bufBase : s.clearErrs.bufBase = s.bufBase := rfl
@[simp] theorem State.clearErrs_trigEn : s.clearErrs.trigEn = s.trigEn := rfl
@[simp] theorem State.clearErrs_trigIndex : s.clearErrs.trigIndex = s.trigIndex := rfl
@[simp] theorem State.clearErrs_pulseCount : s.clearErrs.pulseCount = s.pulseCount := rfl
@[simp] theorem State.clearErrs_frameCount : s.clearErrs.frameCount = s.frameCount := rfl
@[simp] theorem State.clearErrs_flushed : s.clearErrs.flushed = s.flushed := rfl
@[simp] theorem State.clearErrs_cmdErr : s.clearErrs.cmdErr = false := rfl
@[simp] theorem State.clearErrs_lenErr : s.clearErrs.lenErr = false := rfl
@[simp] theorem State.clearErrs_addrErr : s.clearErrs.addrErr = false := rfl
@[simp] theorem State.clearErrs_busRdata : s.clearErrs.busRdata = s.busRdata := rfl
@[simp] theorem State.clearErrs_ports : s.clearErrs.ports = s.ports := rfl
@[simp] theorem State.clearErrs_events : s.clearErrs.events = s.events := rfl
@[simp] theorem State.clearErrs_mem : s.clearErrs.mem = s.mem := rfl
@[simp] theorem State.clearErrs_memBefore : s.clearErrs.memBefore = s.memBefore := rfl
@[simp] theorem State.clearErrs_frameRdata : s.clearErrs.frameRdata = s.frameRdata := rfl
@[simp] theorem State.clearErrs_pending : s.clearErrs.pending = s.pending := rfl
@[simp] theorem State.clearErrs_tick : s.clearErrs.tick = s.tick := rfl

/-! ### FLUSHED (R50) -/

@[simp] theorem State.setFlushed_st (v : Bool) : (s.setFlushed v).st = s.st := rfl
@[simp] theorem State.setFlushed_pidx (v : Bool) : (s.setFlushed v).pidx = s.pidx := rfl
@[simp] theorem State.setFlushed_iter (v : Bool) : (s.setFlushed v).iter = s.iter := rfl
@[simp] theorem State.setFlushed_sub (v : Bool) : (s.setFlushed v).sub = s.sub := rfl
@[simp] theorem State.setFlushed_tcnt (v : Bool) : (s.setFlushed v).tcnt = s.tcnt := rfl
@[simp] theorem State.setFlushed_smpA (v : Bool) : (s.setFlushed v).smpA = s.smpA := rfl
@[simp] theorem State.setFlushed_smpB (v : Bool) : (s.setFlushed v).smpB = s.smpB := rfl
@[simp] theorem State.setFlushed_expL (v : Bool) : (s.setFlushed v).expL = s.expL := rfl
@[simp] theorem State.setFlushed_baseL (v : Bool) : (s.setFlushed v).baseL = s.baseL := rfl
@[simp] theorem State.setFlushed_tenL (v : Bool) : (s.setFlushed v).tenL = s.tenL := rfl
@[simp] theorem State.setFlushed_tidxL (v : Bool) : (s.setFlushed v).tidxL = s.tidxL := rfl
@[simp] theorem State.setFlushed_usLeft (v : Bool) : (s.setFlushed v).usLeft = s.usLeft := rfl
@[simp] theorem State.setFlushed_presc (v : Bool) : (s.setFlushed v).presc = s.presc := rfl
@[simp] theorem State.setFlushed_exposureUs (v : Bool) : (s.setFlushed v).exposureUs = s.exposureUs := rfl
@[simp] theorem State.setFlushed_frameLen (v : Bool) : (s.setFlushed v).frameLen = s.frameLen := rfl
@[simp] theorem State.setFlushed_bufBase (v : Bool) : (s.setFlushed v).bufBase = s.bufBase := rfl
@[simp] theorem State.setFlushed_trigEn (v : Bool) : (s.setFlushed v).trigEn = s.trigEn := rfl
@[simp] theorem State.setFlushed_trigIndex (v : Bool) : (s.setFlushed v).trigIndex = s.trigIndex := rfl
@[simp] theorem State.setFlushed_pulseCount (v : Bool) : (s.setFlushed v).pulseCount = s.pulseCount := rfl
@[simp] theorem State.setFlushed_frameCount (v : Bool) : (s.setFlushed v).frameCount = s.frameCount := rfl
@[simp] theorem State.setFlushed_flushed (v : Bool) : (s.setFlushed v).flushed = v := rfl
@[simp] theorem State.setFlushed_cmdErr (v : Bool) : (s.setFlushed v).cmdErr = s.cmdErr := rfl
@[simp] theorem State.setFlushed_lenErr (v : Bool) : (s.setFlushed v).lenErr = s.lenErr := rfl
@[simp] theorem State.setFlushed_addrErr (v : Bool) : (s.setFlushed v).addrErr = s.addrErr := rfl
@[simp] theorem State.setFlushed_busRdata (v : Bool) : (s.setFlushed v).busRdata = s.busRdata := rfl
@[simp] theorem State.setFlushed_ports (v : Bool) : (s.setFlushed v).ports = s.ports := rfl
@[simp] theorem State.setFlushed_events (v : Bool) : (s.setFlushed v).events = s.events := rfl
@[simp] theorem State.setFlushed_mem (v : Bool) : (s.setFlushed v).mem = s.mem := rfl
@[simp] theorem State.setFlushed_memBefore (v : Bool) : (s.setFlushed v).memBefore = s.memBefore := rfl
@[simp] theorem State.setFlushed_frameRdata (v : Bool) : (s.setFlushed v).frameRdata = s.frameRdata := rfl
@[simp] theorem State.setFlushed_pending (v : Bool) : (s.setFlushed v).pending = s.pending := rfl
@[simp] theorem State.setFlushed_tick (v : Bool) : (s.setFlushed v).tick = s.tick := rfl

/-! ### the latch of a CAPTURE (R38) -/

@[simp] theorem State.latch_st : s.latch.st = s.st := rfl
@[simp] theorem State.latch_pidx : s.latch.pidx = s.pidx := rfl
@[simp] theorem State.latch_iter : s.latch.iter = s.iter := rfl
@[simp] theorem State.latch_sub : s.latch.sub = s.sub := rfl
@[simp] theorem State.latch_tcnt : s.latch.tcnt = s.tcnt := rfl
@[simp] theorem State.latch_smpA : s.latch.smpA = s.smpA := rfl
@[simp] theorem State.latch_smpB : s.latch.smpB = s.smpB := rfl
@[simp] theorem State.latch_expL : s.latch.expL = s.exposureUs := rfl
@[simp] theorem State.latch_baseL : s.latch.baseL = s.bufBase := rfl
@[simp] theorem State.latch_tenL : s.latch.tenL = s.trigEn := rfl
@[simp] theorem State.latch_tidxL : s.latch.tidxL = s.trigIndex := rfl
@[simp] theorem State.latch_usLeft : s.latch.usLeft = s.usLeft := rfl
@[simp] theorem State.latch_presc : s.latch.presc = s.presc := rfl
@[simp] theorem State.latch_exposureUs : s.latch.exposureUs = s.exposureUs := rfl
@[simp] theorem State.latch_frameLen : s.latch.frameLen = s.frameLen := rfl
@[simp] theorem State.latch_bufBase : s.latch.bufBase = s.bufBase := rfl
@[simp] theorem State.latch_trigEn : s.latch.trigEn = s.trigEn := rfl
@[simp] theorem State.latch_trigIndex : s.latch.trigIndex = s.trigIndex := rfl
@[simp] theorem State.latch_pulseCount : s.latch.pulseCount = s.pulseCount := rfl
@[simp] theorem State.latch_frameCount : s.latch.frameCount = s.frameCount := rfl
@[simp] theorem State.latch_flushed : s.latch.flushed = s.flushed := rfl
@[simp] theorem State.latch_cmdErr : s.latch.cmdErr = s.cmdErr := rfl
@[simp] theorem State.latch_lenErr : s.latch.lenErr = s.lenErr := rfl
@[simp] theorem State.latch_addrErr : s.latch.addrErr = s.addrErr := rfl
@[simp] theorem State.latch_busRdata : s.latch.busRdata = s.busRdata := rfl
@[simp] theorem State.latch_ports : s.latch.ports = s.ports := rfl
@[simp] theorem State.latch_events : s.latch.events = s.events := rfl
@[simp] theorem State.latch_mem : s.latch.mem = s.mem := rfl
@[simp] theorem State.latch_memBefore : s.latch.memBefore = s.memBefore := rfl
@[simp] theorem State.latch_frameRdata : s.latch.frameRdata = s.frameRdata := rfl
@[simp] theorem State.latch_pending : s.latch.pending = s.pending := rfl
@[simp] theorem State.latch_tick : s.latch.tick = s.tick := rfl

/-! ### a slot begins (R141) -/

@[simp] theorem State.enter_st (q : Fsm) (k n i : Nat) : (s.enter q k n i).st = q := rfl
@[simp] theorem State.enter_pidx (q : Fsm) (k n i : Nat) : (s.enter q k n i).pidx = n := rfl
@[simp] theorem State.enter_iter (q : Fsm) (k n i : Nat) : (s.enter q k n i).iter = i := rfl
@[simp] theorem State.enter_sub (q : Fsm) (k n i : Nat) : (s.enter q k n i).sub = k := rfl
@[simp] theorem State.enter_tcnt (q : Fsm) (k n i : Nat) : (s.enter q k n i).tcnt = 0 := rfl
@[simp] theorem State.enter_smpA (q : Fsm) (k n i : Nat) : (s.enter q k n i).smpA = s.smpA := rfl
@[simp] theorem State.enter_smpB (q : Fsm) (k n i : Nat) : (s.enter q k n i).smpB = s.smpB := rfl
@[simp] theorem State.enter_expL (q : Fsm) (k n i : Nat) : (s.enter q k n i).expL = s.expL := rfl
@[simp] theorem State.enter_baseL (q : Fsm) (k n i : Nat) : (s.enter q k n i).baseL = s.baseL := rfl
@[simp] theorem State.enter_tenL (q : Fsm) (k n i : Nat) : (s.enter q k n i).tenL = s.tenL := rfl
@[simp] theorem State.enter_tidxL (q : Fsm) (k n i : Nat) : (s.enter q k n i).tidxL = s.tidxL := rfl
@[simp] theorem State.enter_usLeft (q : Fsm) (k n i : Nat) : (s.enter q k n i).usLeft = s.usLeft := rfl
@[simp] theorem State.enter_presc (q : Fsm) (k n i : Nat) : (s.enter q k n i).presc = s.presc := rfl
@[simp] theorem State.enter_exposureUs (q : Fsm) (k n i : Nat) : (s.enter q k n i).exposureUs = s.exposureUs := rfl
@[simp] theorem State.enter_frameLen (q : Fsm) (k n i : Nat) : (s.enter q k n i).frameLen = s.frameLen := rfl
@[simp] theorem State.enter_bufBase (q : Fsm) (k n i : Nat) : (s.enter q k n i).bufBase = s.bufBase := rfl
@[simp] theorem State.enter_trigEn (q : Fsm) (k n i : Nat) : (s.enter q k n i).trigEn = s.trigEn := rfl
@[simp] theorem State.enter_trigIndex (q : Fsm) (k n i : Nat) : (s.enter q k n i).trigIndex = s.trigIndex := rfl
@[simp] theorem State.enter_pulseCount (q : Fsm) (k n i : Nat) :
    (s.enter q k n i).pulseCount = (if (slotAt q k).startsHigh then s.pulseCount + 1#32 else s.pulseCount) := rfl
@[simp] theorem State.enter_frameCount (q : Fsm) (k n i : Nat) : (s.enter q k n i).frameCount = s.frameCount := rfl
@[simp] theorem State.enter_flushed (q : Fsm) (k n i : Nat) : (s.enter q k n i).flushed = s.flushed := rfl
@[simp] theorem State.enter_cmdErr (q : Fsm) (k n i : Nat) : (s.enter q k n i).cmdErr = s.cmdErr := rfl
@[simp] theorem State.enter_lenErr (q : Fsm) (k n i : Nat) : (s.enter q k n i).lenErr = s.lenErr := rfl
@[simp] theorem State.enter_addrErr (q : Fsm) (k n i : Nat) : (s.enter q k n i).addrErr = s.addrErr := rfl
@[simp] theorem State.enter_busRdata (q : Fsm) (k n i : Nat) : (s.enter q k n i).busRdata = s.busRdata := rfl
@[simp] theorem State.enter_ports (q : Fsm) (k n i : Nat) : (s.enter q k n i).ports = s.ports := rfl
@[simp] theorem State.enter_events (q : Fsm) (k n i : Nat) : (s.enter q k n i).events = s.events := rfl
@[simp] theorem State.enter_mem (q : Fsm) (k n i : Nat) : (s.enter q k n i).mem = s.mem := rfl
@[simp] theorem State.enter_memBefore (q : Fsm) (k n i : Nat) : (s.enter q k n i).memBefore = s.memBefore := rfl
@[simp] theorem State.enter_frameRdata (q : Fsm) (k n i : Nat) : (s.enter q k n i).frameRdata = s.frameRdata := rfl
@[simp] theorem State.enter_pending (q : Fsm) (k n i : Nat) : (s.enter q k n i).pending = s.pending := rfl
@[simp] theorem State.enter_tick (q : Fsm) (k n i : Nat) : (s.enter q k n i).tick = s.tick := rfl

/-! ### a sample is taken (R146) -/

@[simp] theorem State.takeSample_st (p : Params) (d : Draws) : (s.takeSample p d).st = s.st := rfl
@[simp] theorem State.takeSample_pidx (p : Params) (d : Draws) : (s.takeSample p d).pidx = s.pidx := rfl
@[simp] theorem State.takeSample_iter (p : Params) (d : Draws) : (s.takeSample p d).iter = s.iter := rfl
@[simp] theorem State.takeSample_sub (p : Params) (d : Draws) : (s.takeSample p d).sub = s.sub := rfl
@[simp] theorem State.takeSample_tcnt (p : Params) (d : Draws) : (s.takeSample p d).tcnt = s.tcnt := rfl
@[simp] theorem State.takeSample_smpA (p : Params) (d : Draws) :
    (s.takeSample p d).smpA = rawSample p.adcW d.smpA := rfl
@[simp] theorem State.takeSample_smpB (p : Params) (d : Draws) :
    (s.takeSample p d).smpB = rawSample p.adcW d.smpB := rfl
@[simp] theorem State.takeSample_expL (p : Params) (d : Draws) : (s.takeSample p d).expL = s.expL := rfl
@[simp] theorem State.takeSample_baseL (p : Params) (d : Draws) : (s.takeSample p d).baseL = s.baseL := rfl
@[simp] theorem State.takeSample_tenL (p : Params) (d : Draws) : (s.takeSample p d).tenL = s.tenL := rfl
@[simp] theorem State.takeSample_tidxL (p : Params) (d : Draws) : (s.takeSample p d).tidxL = s.tidxL := rfl
@[simp] theorem State.takeSample_usLeft (p : Params) (d : Draws) : (s.takeSample p d).usLeft = s.usLeft := rfl
@[simp] theorem State.takeSample_presc (p : Params) (d : Draws) : (s.takeSample p d).presc = s.presc := rfl
@[simp] theorem State.takeSample_exposureUs (p : Params) (d : Draws) :
    (s.takeSample p d).exposureUs = s.exposureUs := rfl
@[simp] theorem State.takeSample_frameLen (p : Params) (d : Draws) : (s.takeSample p d).frameLen = s.frameLen := rfl
@[simp] theorem State.takeSample_bufBase (p : Params) (d : Draws) : (s.takeSample p d).bufBase = s.bufBase := rfl
@[simp] theorem State.takeSample_trigEn (p : Params) (d : Draws) : (s.takeSample p d).trigEn = s.trigEn := rfl
@[simp] theorem State.takeSample_trigIndex (p : Params) (d : Draws) :
    (s.takeSample p d).trigIndex = s.trigIndex := rfl
@[simp] theorem State.takeSample_pulseCount (p : Params) (d : Draws) :
    (s.takeSample p d).pulseCount = s.pulseCount := rfl
@[simp] theorem State.takeSample_frameCount (p : Params) (d : Draws) :
    (s.takeSample p d).frameCount = s.frameCount := rfl
@[simp] theorem State.takeSample_flushed (p : Params) (d : Draws) : (s.takeSample p d).flushed = s.flushed := rfl
@[simp] theorem State.takeSample_cmdErr (p : Params) (d : Draws) : (s.takeSample p d).cmdErr = s.cmdErr := rfl
@[simp] theorem State.takeSample_lenErr (p : Params) (d : Draws) : (s.takeSample p d).lenErr = s.lenErr := rfl
@[simp] theorem State.takeSample_addrErr (p : Params) (d : Draws) : (s.takeSample p d).addrErr = s.addrErr := rfl
@[simp] theorem State.takeSample_busRdata (p : Params) (d : Draws) : (s.takeSample p d).busRdata = s.busRdata := rfl
@[simp] theorem State.takeSample_ports (p : Params) (d : Draws) : (s.takeSample p d).ports = s.ports := rfl
@[simp] theorem State.takeSample_events (p : Params) (d : Draws) : (s.takeSample p d).events = s.events := rfl
@[simp] theorem State.takeSample_mem (p : Params) (d : Draws) : (s.takeSample p d).mem = s.mem := rfl
@[simp] theorem State.takeSample_memBefore (p : Params) (d : Draws) :
    (s.takeSample p d).memBefore = s.memBefore := rfl
@[simp] theorem State.takeSample_frameRdata (p : Params) (d : Draws) :
    (s.takeSample p d).frameRdata = s.frameRdata := rfl
@[simp] theorem State.takeSample_pending (p : Params) (d : Draws) : (s.takeSample p d).pending = s.pending := rfl
@[simp] theorem State.takeSample_tick (p : Params) (d : Draws) : (s.takeSample p d).tick = s.tick := rfl

/-! ### a byte is stored (R149) -/

@[simp] theorem State.storeLane_st (l : Lane) : (s.storeLane l).st = s.st := rfl
@[simp] theorem State.storeLane_pidx (l : Lane) : (s.storeLane l).pidx = s.pidx := rfl
@[simp] theorem State.storeLane_iter (l : Lane) : (s.storeLane l).iter = s.iter := rfl
@[simp] theorem State.storeLane_sub (l : Lane) : (s.storeLane l).sub = s.sub := rfl
@[simp] theorem State.storeLane_tcnt (l : Lane) : (s.storeLane l).tcnt = s.tcnt := rfl
@[simp] theorem State.storeLane_smpA (l : Lane) : (s.storeLane l).smpA = s.smpA := rfl
@[simp] theorem State.storeLane_smpB (l : Lane) : (s.storeLane l).smpB = s.smpB := rfl
@[simp] theorem State.storeLane_expL (l : Lane) : (s.storeLane l).expL = s.expL := rfl
@[simp] theorem State.storeLane_baseL (l : Lane) : (s.storeLane l).baseL = s.baseL := rfl
@[simp] theorem State.storeLane_tenL (l : Lane) : (s.storeLane l).tenL = s.tenL := rfl
@[simp] theorem State.storeLane_tidxL (l : Lane) : (s.storeLane l).tidxL = s.tidxL := rfl
@[simp] theorem State.storeLane_usLeft (l : Lane) : (s.storeLane l).usLeft = s.usLeft := rfl
@[simp] theorem State.storeLane_presc (l : Lane) : (s.storeLane l).presc = s.presc := rfl
@[simp] theorem State.storeLane_exposureUs (l : Lane) : (s.storeLane l).exposureUs = s.exposureUs := rfl
@[simp] theorem State.storeLane_frameLen (l : Lane) : (s.storeLane l).frameLen = s.frameLen := rfl
@[simp] theorem State.storeLane_bufBase (l : Lane) : (s.storeLane l).bufBase = s.bufBase := rfl
@[simp] theorem State.storeLane_trigEn (l : Lane) : (s.storeLane l).trigEn = s.trigEn := rfl
@[simp] theorem State.storeLane_trigIndex (l : Lane) : (s.storeLane l).trigIndex = s.trigIndex := rfl
@[simp] theorem State.storeLane_pulseCount (l : Lane) : (s.storeLane l).pulseCount = s.pulseCount := rfl
@[simp] theorem State.storeLane_frameCount (l : Lane) : (s.storeLane l).frameCount = s.frameCount := rfl
@[simp] theorem State.storeLane_flushed (l : Lane) : (s.storeLane l).flushed = s.flushed := rfl
@[simp] theorem State.storeLane_cmdErr (l : Lane) : (s.storeLane l).cmdErr = s.cmdErr := rfl
@[simp] theorem State.storeLane_lenErr (l : Lane) : (s.storeLane l).lenErr = s.lenErr := rfl
@[simp] theorem State.storeLane_addrErr (l : Lane) : (s.storeLane l).addrErr = s.addrErr := rfl
@[simp] theorem State.storeLane_busRdata (l : Lane) : (s.storeLane l).busRdata = s.busRdata := rfl
@[simp] theorem State.storeLane_ports (l : Lane) : (s.storeLane l).ports = s.ports := rfl
@[simp] theorem State.storeLane_events (l : Lane) : (s.storeLane l).events = s.events := rfl
@[simp] theorem State.storeLane_mem (l : Lane) :
    (s.storeLane l).mem = Memory.write s.mem (s.laneAddr l) (s.laneData l) := rfl
@[simp] theorem State.storeLane_memBefore (l : Lane) : (s.storeLane l).memBefore = s.memBefore := rfl
@[simp] theorem State.storeLane_frameRdata (l : Lane) : (s.storeLane l).frameRdata = s.frameRdata := rfl
@[simp] theorem State.storeLane_pending (l : Lane) : (s.storeLane l).pending = s.pending := rfl
@[simp] theorem State.storeLane_tick (l : Lane) : (s.storeLane l).tick = s.tick := rfl

/-! ### the exposure timer is loaded (R150) -/

@[simp] theorem State.loadTimer_st : s.loadTimer.st = s.st := rfl
@[simp] theorem State.loadTimer_pidx : s.loadTimer.pidx = s.pidx := rfl
@[simp] theorem State.loadTimer_iter : s.loadTimer.iter = s.iter := rfl
@[simp] theorem State.loadTimer_sub : s.loadTimer.sub = s.sub := rfl
@[simp] theorem State.loadTimer_tcnt : s.loadTimer.tcnt = s.tcnt := rfl
@[simp] theorem State.loadTimer_smpA : s.loadTimer.smpA = s.smpA := rfl
@[simp] theorem State.loadTimer_smpB : s.loadTimer.smpB = s.smpB := rfl
@[simp] theorem State.loadTimer_expL : s.loadTimer.expL = s.expL := rfl
@[simp] theorem State.loadTimer_baseL : s.loadTimer.baseL = s.baseL := rfl
@[simp] theorem State.loadTimer_tenL : s.loadTimer.tenL = s.tenL := rfl
@[simp] theorem State.loadTimer_tidxL : s.loadTimer.tidxL = s.tidxL := rfl
@[simp] theorem State.loadTimer_usLeft : s.loadTimer.usLeft = s.expL := rfl
@[simp] theorem State.loadTimer_presc : s.loadTimer.presc = 0 := rfl
@[simp] theorem State.loadTimer_exposureUs : s.loadTimer.exposureUs = s.exposureUs := rfl
@[simp] theorem State.loadTimer_frameLen : s.loadTimer.frameLen = s.frameLen := rfl
@[simp] theorem State.loadTimer_bufBase : s.loadTimer.bufBase = s.bufBase := rfl
@[simp] theorem State.loadTimer_trigEn : s.loadTimer.trigEn = s.trigEn := rfl
@[simp] theorem State.loadTimer_trigIndex : s.loadTimer.trigIndex = s.trigIndex := rfl
@[simp] theorem State.loadTimer_pulseCount : s.loadTimer.pulseCount = s.pulseCount := rfl
@[simp] theorem State.loadTimer_frameCount : s.loadTimer.frameCount = s.frameCount := rfl
@[simp] theorem State.loadTimer_flushed : s.loadTimer.flushed = s.flushed := rfl
@[simp] theorem State.loadTimer_cmdErr : s.loadTimer.cmdErr = s.cmdErr := rfl
@[simp] theorem State.loadTimer_lenErr : s.loadTimer.lenErr = s.lenErr := rfl
@[simp] theorem State.loadTimer_addrErr : s.loadTimer.addrErr = s.addrErr := rfl
@[simp] theorem State.loadTimer_busRdata : s.loadTimer.busRdata = s.busRdata := rfl
@[simp] theorem State.loadTimer_ports : s.loadTimer.ports = s.ports := rfl
@[simp] theorem State.loadTimer_events : s.loadTimer.events = s.events := rfl
@[simp] theorem State.loadTimer_mem : s.loadTimer.mem = s.mem := rfl
@[simp] theorem State.loadTimer_memBefore : s.loadTimer.memBefore = s.memBefore := rfl
@[simp] theorem State.loadTimer_frameRdata : s.loadTimer.frameRdata = s.frameRdata := rfl
@[simp] theorem State.loadTimer_pending : s.loadTimer.pending = s.pending := rfl
@[simp] theorem State.loadTimer_tick : s.loadTimer.tick = s.tick := rfl

/-! ### a microsecond ends (R150) -/

@[simp] theorem State.countUs_st : s.countUs.st = s.st := rfl
@[simp] theorem State.countUs_pidx : s.countUs.pidx = s.pidx := rfl
@[simp] theorem State.countUs_iter : s.countUs.iter = s.iter := rfl
@[simp] theorem State.countUs_sub : s.countUs.sub = s.sub := rfl
@[simp] theorem State.countUs_tcnt : s.countUs.tcnt = s.tcnt := rfl
@[simp] theorem State.countUs_smpA : s.countUs.smpA = s.smpA := rfl
@[simp] theorem State.countUs_smpB : s.countUs.smpB = s.smpB := rfl
@[simp] theorem State.countUs_expL : s.countUs.expL = s.expL := rfl
@[simp] theorem State.countUs_baseL : s.countUs.baseL = s.baseL := rfl
@[simp] theorem State.countUs_tenL : s.countUs.tenL = s.tenL := rfl
@[simp] theorem State.countUs_tidxL : s.countUs.tidxL = s.tidxL := rfl
@[simp] theorem State.countUs_usLeft : s.countUs.usLeft = s.usLeft - 1#32 := rfl
@[simp] theorem State.countUs_presc : s.countUs.presc = 0 := rfl
@[simp] theorem State.countUs_exposureUs : s.countUs.exposureUs = s.exposureUs := rfl
@[simp] theorem State.countUs_frameLen : s.countUs.frameLen = s.frameLen := rfl
@[simp] theorem State.countUs_bufBase : s.countUs.bufBase = s.bufBase := rfl
@[simp] theorem State.countUs_trigEn : s.countUs.trigEn = s.trigEn := rfl
@[simp] theorem State.countUs_trigIndex : s.countUs.trigIndex = s.trigIndex := rfl
@[simp] theorem State.countUs_pulseCount : s.countUs.pulseCount = s.pulseCount := rfl
@[simp] theorem State.countUs_frameCount : s.countUs.frameCount = s.frameCount := rfl
@[simp] theorem State.countUs_flushed : s.countUs.flushed = s.flushed := rfl
@[simp] theorem State.countUs_cmdErr : s.countUs.cmdErr = s.cmdErr := rfl
@[simp] theorem State.countUs_lenErr : s.countUs.lenErr = s.lenErr := rfl
@[simp] theorem State.countUs_addrErr : s.countUs.addrErr = s.addrErr := rfl
@[simp] theorem State.countUs_busRdata : s.countUs.busRdata = s.busRdata := rfl
@[simp] theorem State.countUs_ports : s.countUs.ports = s.ports := rfl
@[simp] theorem State.countUs_events : s.countUs.events = s.events := rfl
@[simp] theorem State.countUs_mem : s.countUs.mem = s.mem := rfl
@[simp] theorem State.countUs_memBefore : s.countUs.memBefore = s.memBefore := rfl
@[simp] theorem State.countUs_frameRdata : s.countUs.frameRdata = s.frameRdata := rfl
@[simp] theorem State.countUs_pending : s.countUs.pending = s.pending := rfl
@[simp] theorem State.countUs_tick : s.countUs.tick = s.tick := rfl

/-! ### FRAME_COUNT counts (R197) -/

@[simp] theorem State.countFrame_st : s.countFrame.st = s.st := rfl
@[simp] theorem State.countFrame_pidx : s.countFrame.pidx = s.pidx := rfl
@[simp] theorem State.countFrame_iter : s.countFrame.iter = s.iter := rfl
@[simp] theorem State.countFrame_sub : s.countFrame.sub = s.sub := rfl
@[simp] theorem State.countFrame_tcnt : s.countFrame.tcnt = s.tcnt := rfl
@[simp] theorem State.countFrame_smpA : s.countFrame.smpA = s.smpA := rfl
@[simp] theorem State.countFrame_smpB : s.countFrame.smpB = s.smpB := rfl
@[simp] theorem State.countFrame_expL : s.countFrame.expL = s.expL := rfl
@[simp] theorem State.countFrame_baseL : s.countFrame.baseL = s.baseL := rfl
@[simp] theorem State.countFrame_tenL : s.countFrame.tenL = s.tenL := rfl
@[simp] theorem State.countFrame_tidxL : s.countFrame.tidxL = s.tidxL := rfl
@[simp] theorem State.countFrame_usLeft : s.countFrame.usLeft = s.usLeft := rfl
@[simp] theorem State.countFrame_presc : s.countFrame.presc = s.presc := rfl
@[simp] theorem State.countFrame_exposureUs : s.countFrame.exposureUs = s.exposureUs := rfl
@[simp] theorem State.countFrame_frameLen : s.countFrame.frameLen = s.frameLen := rfl
@[simp] theorem State.countFrame_bufBase : s.countFrame.bufBase = s.bufBase := rfl
@[simp] theorem State.countFrame_trigEn : s.countFrame.trigEn = s.trigEn := rfl
@[simp] theorem State.countFrame_trigIndex : s.countFrame.trigIndex = s.trigIndex := rfl
@[simp] theorem State.countFrame_pulseCount : s.countFrame.pulseCount = s.pulseCount := rfl
@[simp] theorem State.countFrame_frameCount : s.countFrame.frameCount = s.frameCount + 1#32 := rfl
@[simp] theorem State.countFrame_flushed : s.countFrame.flushed = s.flushed := rfl
@[simp] theorem State.countFrame_cmdErr : s.countFrame.cmdErr = s.cmdErr := rfl
@[simp] theorem State.countFrame_lenErr : s.countFrame.lenErr = s.lenErr := rfl
@[simp] theorem State.countFrame_addrErr : s.countFrame.addrErr = s.addrErr := rfl
@[simp] theorem State.countFrame_busRdata : s.countFrame.busRdata = s.busRdata := rfl
@[simp] theorem State.countFrame_ports : s.countFrame.ports = s.ports := rfl
@[simp] theorem State.countFrame_events : s.countFrame.events = s.events := rfl
@[simp] theorem State.countFrame_mem : s.countFrame.mem = s.mem := rfl
@[simp] theorem State.countFrame_memBefore : s.countFrame.memBefore = s.memBefore := rfl
@[simp] theorem State.countFrame_frameRdata : s.countFrame.frameRdata = s.frameRdata := rfl
@[simp] theorem State.countFrame_pending : s.countFrame.pending = s.pending := rfl
@[simp] theorem State.countFrame_tick : s.countFrame.tick = s.tick := rfl

/-! ### `bus_rdata` is driven (R31) -/

@[simp] theorem State.drive_st (v : Word) : (s.drive v).st = s.st := rfl
@[simp] theorem State.drive_pidx (v : Word) : (s.drive v).pidx = s.pidx := rfl
@[simp] theorem State.drive_iter (v : Word) : (s.drive v).iter = s.iter := rfl
@[simp] theorem State.drive_sub (v : Word) : (s.drive v).sub = s.sub := rfl
@[simp] theorem State.drive_tcnt (v : Word) : (s.drive v).tcnt = s.tcnt := rfl
@[simp] theorem State.drive_smpA (v : Word) : (s.drive v).smpA = s.smpA := rfl
@[simp] theorem State.drive_smpB (v : Word) : (s.drive v).smpB = s.smpB := rfl
@[simp] theorem State.drive_expL (v : Word) : (s.drive v).expL = s.expL := rfl
@[simp] theorem State.drive_baseL (v : Word) : (s.drive v).baseL = s.baseL := rfl
@[simp] theorem State.drive_tenL (v : Word) : (s.drive v).tenL = s.tenL := rfl
@[simp] theorem State.drive_tidxL (v : Word) : (s.drive v).tidxL = s.tidxL := rfl
@[simp] theorem State.drive_usLeft (v : Word) : (s.drive v).usLeft = s.usLeft := rfl
@[simp] theorem State.drive_presc (v : Word) : (s.drive v).presc = s.presc := rfl
@[simp] theorem State.drive_exposureUs (v : Word) : (s.drive v).exposureUs = s.exposureUs := rfl
@[simp] theorem State.drive_frameLen (v : Word) : (s.drive v).frameLen = s.frameLen := rfl
@[simp] theorem State.drive_bufBase (v : Word) : (s.drive v).bufBase = s.bufBase := rfl
@[simp] theorem State.drive_trigEn (v : Word) : (s.drive v).trigEn = s.trigEn := rfl
@[simp] theorem State.drive_trigIndex (v : Word) : (s.drive v).trigIndex = s.trigIndex := rfl
@[simp] theorem State.drive_pulseCount (v : Word) : (s.drive v).pulseCount = s.pulseCount := rfl
@[simp] theorem State.drive_frameCount (v : Word) : (s.drive v).frameCount = s.frameCount := rfl
@[simp] theorem State.drive_flushed (v : Word) : (s.drive v).flushed = s.flushed := rfl
@[simp] theorem State.drive_cmdErr (v : Word) : (s.drive v).cmdErr = s.cmdErr := rfl
@[simp] theorem State.drive_lenErr (v : Word) : (s.drive v).lenErr = s.lenErr := rfl
@[simp] theorem State.drive_addrErr (v : Word) : (s.drive v).addrErr = s.addrErr := rfl
@[simp] theorem State.drive_busRdata (v : Word) : (s.drive v).busRdata = v := rfl
@[simp] theorem State.drive_ports (v : Word) : (s.drive v).ports = s.ports := rfl
@[simp] theorem State.drive_events (v : Word) : (s.drive v).events = s.events := rfl
@[simp] theorem State.drive_mem (v : Word) : (s.drive v).mem = s.mem := rfl
@[simp] theorem State.drive_memBefore (v : Word) : (s.drive v).memBefore = s.memBefore := rfl
@[simp] theorem State.drive_frameRdata (v : Word) : (s.drive v).frameRdata = s.frameRdata := rfl
@[simp] theorem State.drive_pending (v : Word) : (s.drive v).pending = s.pending := rfl
@[simp] theorem State.drive_tick (v : Word) : (s.drive v).tick = s.tick := rfl

/-! ### EXPOSURE_US is written (R43) -/

@[simp] theorem State.setExposure_st (v : Word) : (s.setExposure v).st = s.st := rfl
@[simp] theorem State.setExposure_pidx (v : Word) : (s.setExposure v).pidx = s.pidx := rfl
@[simp] theorem State.setExposure_iter (v : Word) : (s.setExposure v).iter = s.iter := rfl
@[simp] theorem State.setExposure_sub (v : Word) : (s.setExposure v).sub = s.sub := rfl
@[simp] theorem State.setExposure_tcnt (v : Word) : (s.setExposure v).tcnt = s.tcnt := rfl
@[simp] theorem State.setExposure_smpA (v : Word) : (s.setExposure v).smpA = s.smpA := rfl
@[simp] theorem State.setExposure_smpB (v : Word) : (s.setExposure v).smpB = s.smpB := rfl
@[simp] theorem State.setExposure_expL (v : Word) : (s.setExposure v).expL = s.expL := rfl
@[simp] theorem State.setExposure_baseL (v : Word) : (s.setExposure v).baseL = s.baseL := rfl
@[simp] theorem State.setExposure_tenL (v : Word) : (s.setExposure v).tenL = s.tenL := rfl
@[simp] theorem State.setExposure_tidxL (v : Word) : (s.setExposure v).tidxL = s.tidxL := rfl
@[simp] theorem State.setExposure_usLeft (v : Word) : (s.setExposure v).usLeft = s.usLeft := rfl
@[simp] theorem State.setExposure_presc (v : Word) : (s.setExposure v).presc = s.presc := rfl
@[simp] theorem State.setExposure_exposureUs (v : Word) : (s.setExposure v).exposureUs = v := rfl
@[simp] theorem State.setExposure_frameLen (v : Word) : (s.setExposure v).frameLen = s.frameLen := rfl
@[simp] theorem State.setExposure_bufBase (v : Word) : (s.setExposure v).bufBase = s.bufBase := rfl
@[simp] theorem State.setExposure_trigEn (v : Word) : (s.setExposure v).trigEn = s.trigEn := rfl
@[simp] theorem State.setExposure_trigIndex (v : Word) : (s.setExposure v).trigIndex = s.trigIndex := rfl
@[simp] theorem State.setExposure_pulseCount (v : Word) : (s.setExposure v).pulseCount = s.pulseCount := rfl
@[simp] theorem State.setExposure_frameCount (v : Word) : (s.setExposure v).frameCount = s.frameCount := rfl
@[simp] theorem State.setExposure_flushed (v : Word) : (s.setExposure v).flushed = s.flushed := rfl
@[simp] theorem State.setExposure_cmdErr (v : Word) : (s.setExposure v).cmdErr = s.cmdErr := rfl
@[simp] theorem State.setExposure_lenErr (v : Word) : (s.setExposure v).lenErr = s.lenErr := rfl
@[simp] theorem State.setExposure_addrErr (v : Word) : (s.setExposure v).addrErr = s.addrErr := rfl
@[simp] theorem State.setExposure_busRdata (v : Word) : (s.setExposure v).busRdata = s.busRdata := rfl
@[simp] theorem State.setExposure_ports (v : Word) : (s.setExposure v).ports = s.ports := rfl
@[simp] theorem State.setExposure_events (v : Word) : (s.setExposure v).events = s.events := rfl
@[simp] theorem State.setExposure_mem (v : Word) : (s.setExposure v).mem = s.mem := rfl
@[simp] theorem State.setExposure_memBefore (v : Word) : (s.setExposure v).memBefore = s.memBefore := rfl
@[simp] theorem State.setExposure_frameRdata (v : Word) : (s.setExposure v).frameRdata = s.frameRdata := rfl
@[simp] theorem State.setExposure_pending (v : Word) : (s.setExposure v).pending = s.pending := rfl
@[simp] theorem State.setExposure_tick (v : Word) : (s.setExposure v).tick = s.tick := rfl

/-! ### FRAME_LEN is written (R44) -/

@[simp] theorem State.setFrameLen_st (v : Word) : (s.setFrameLen v).st = s.st := rfl
@[simp] theorem State.setFrameLen_pidx (v : Word) : (s.setFrameLen v).pidx = s.pidx := rfl
@[simp] theorem State.setFrameLen_iter (v : Word) : (s.setFrameLen v).iter = s.iter := rfl
@[simp] theorem State.setFrameLen_sub (v : Word) : (s.setFrameLen v).sub = s.sub := rfl
@[simp] theorem State.setFrameLen_tcnt (v : Word) : (s.setFrameLen v).tcnt = s.tcnt := rfl
@[simp] theorem State.setFrameLen_smpA (v : Word) : (s.setFrameLen v).smpA = s.smpA := rfl
@[simp] theorem State.setFrameLen_smpB (v : Word) : (s.setFrameLen v).smpB = s.smpB := rfl
@[simp] theorem State.setFrameLen_expL (v : Word) : (s.setFrameLen v).expL = s.expL := rfl
@[simp] theorem State.setFrameLen_baseL (v : Word) : (s.setFrameLen v).baseL = s.baseL := rfl
@[simp] theorem State.setFrameLen_tenL (v : Word) : (s.setFrameLen v).tenL = s.tenL := rfl
@[simp] theorem State.setFrameLen_tidxL (v : Word) : (s.setFrameLen v).tidxL = s.tidxL := rfl
@[simp] theorem State.setFrameLen_usLeft (v : Word) : (s.setFrameLen v).usLeft = s.usLeft := rfl
@[simp] theorem State.setFrameLen_presc (v : Word) : (s.setFrameLen v).presc = s.presc := rfl
@[simp] theorem State.setFrameLen_exposureUs (v : Word) : (s.setFrameLen v).exposureUs = s.exposureUs := rfl
@[simp] theorem State.setFrameLen_frameLen (v : Word) : (s.setFrameLen v).frameLen = v := rfl
@[simp] theorem State.setFrameLen_bufBase (v : Word) : (s.setFrameLen v).bufBase = s.bufBase := rfl
@[simp] theorem State.setFrameLen_trigEn (v : Word) : (s.setFrameLen v).trigEn = s.trigEn := rfl
@[simp] theorem State.setFrameLen_trigIndex (v : Word) : (s.setFrameLen v).trigIndex = s.trigIndex := rfl
@[simp] theorem State.setFrameLen_pulseCount (v : Word) : (s.setFrameLen v).pulseCount = s.pulseCount := rfl
@[simp] theorem State.setFrameLen_frameCount (v : Word) : (s.setFrameLen v).frameCount = s.frameCount := rfl
@[simp] theorem State.setFrameLen_flushed (v : Word) : (s.setFrameLen v).flushed = s.flushed := rfl
@[simp] theorem State.setFrameLen_cmdErr (v : Word) : (s.setFrameLen v).cmdErr = s.cmdErr := rfl
@[simp] theorem State.setFrameLen_lenErr (v : Word) : (s.setFrameLen v).lenErr = s.lenErr := rfl
@[simp] theorem State.setFrameLen_addrErr (v : Word) : (s.setFrameLen v).addrErr = s.addrErr := rfl
@[simp] theorem State.setFrameLen_busRdata (v : Word) : (s.setFrameLen v).busRdata = s.busRdata := rfl
@[simp] theorem State.setFrameLen_ports (v : Word) : (s.setFrameLen v).ports = s.ports := rfl
@[simp] theorem State.setFrameLen_events (v : Word) : (s.setFrameLen v).events = s.events := rfl
@[simp] theorem State.setFrameLen_mem (v : Word) : (s.setFrameLen v).mem = s.mem := rfl
@[simp] theorem State.setFrameLen_memBefore (v : Word) : (s.setFrameLen v).memBefore = s.memBefore := rfl
@[simp] theorem State.setFrameLen_frameRdata (v : Word) : (s.setFrameLen v).frameRdata = s.frameRdata := rfl
@[simp] theorem State.setFrameLen_pending (v : Word) : (s.setFrameLen v).pending = s.pending := rfl
@[simp] theorem State.setFrameLen_tick (v : Word) : (s.setFrameLen v).tick = s.tick := rfl

/-! ### BUF_BASE is written (R45) -/

@[simp] theorem State.setBufBase_st (v : Word) : (s.setBufBase v).st = s.st := rfl
@[simp] theorem State.setBufBase_pidx (v : Word) : (s.setBufBase v).pidx = s.pidx := rfl
@[simp] theorem State.setBufBase_iter (v : Word) : (s.setBufBase v).iter = s.iter := rfl
@[simp] theorem State.setBufBase_sub (v : Word) : (s.setBufBase v).sub = s.sub := rfl
@[simp] theorem State.setBufBase_tcnt (v : Word) : (s.setBufBase v).tcnt = s.tcnt := rfl
@[simp] theorem State.setBufBase_smpA (v : Word) : (s.setBufBase v).smpA = s.smpA := rfl
@[simp] theorem State.setBufBase_smpB (v : Word) : (s.setBufBase v).smpB = s.smpB := rfl
@[simp] theorem State.setBufBase_expL (v : Word) : (s.setBufBase v).expL = s.expL := rfl
@[simp] theorem State.setBufBase_baseL (v : Word) : (s.setBufBase v).baseL = s.baseL := rfl
@[simp] theorem State.setBufBase_tenL (v : Word) : (s.setBufBase v).tenL = s.tenL := rfl
@[simp] theorem State.setBufBase_tidxL (v : Word) : (s.setBufBase v).tidxL = s.tidxL := rfl
@[simp] theorem State.setBufBase_usLeft (v : Word) : (s.setBufBase v).usLeft = s.usLeft := rfl
@[simp] theorem State.setBufBase_presc (v : Word) : (s.setBufBase v).presc = s.presc := rfl
@[simp] theorem State.setBufBase_exposureUs (v : Word) : (s.setBufBase v).exposureUs = s.exposureUs := rfl
@[simp] theorem State.setBufBase_frameLen (v : Word) : (s.setBufBase v).frameLen = s.frameLen := rfl
@[simp] theorem State.setBufBase_bufBase (v : Word) : (s.setBufBase v).bufBase = v := rfl
@[simp] theorem State.setBufBase_trigEn (v : Word) : (s.setBufBase v).trigEn = s.trigEn := rfl
@[simp] theorem State.setBufBase_trigIndex (v : Word) : (s.setBufBase v).trigIndex = s.trigIndex := rfl
@[simp] theorem State.setBufBase_pulseCount (v : Word) : (s.setBufBase v).pulseCount = s.pulseCount := rfl
@[simp] theorem State.setBufBase_frameCount (v : Word) : (s.setBufBase v).frameCount = s.frameCount := rfl
@[simp] theorem State.setBufBase_flushed (v : Word) : (s.setBufBase v).flushed = s.flushed := rfl
@[simp] theorem State.setBufBase_cmdErr (v : Word) : (s.setBufBase v).cmdErr = s.cmdErr := rfl
@[simp] theorem State.setBufBase_lenErr (v : Word) : (s.setBufBase v).lenErr = s.lenErr := rfl
@[simp] theorem State.setBufBase_addrErr (v : Word) : (s.setBufBase v).addrErr = s.addrErr := rfl
@[simp] theorem State.setBufBase_busRdata (v : Word) : (s.setBufBase v).busRdata = s.busRdata := rfl
@[simp] theorem State.setBufBase_ports (v : Word) : (s.setBufBase v).ports = s.ports := rfl
@[simp] theorem State.setBufBase_events (v : Word) : (s.setBufBase v).events = s.events := rfl
@[simp] theorem State.setBufBase_mem (v : Word) : (s.setBufBase v).mem = s.mem := rfl
@[simp] theorem State.setBufBase_memBefore (v : Word) : (s.setBufBase v).memBefore = s.memBefore := rfl
@[simp] theorem State.setBufBase_frameRdata (v : Word) : (s.setBufBase v).frameRdata = s.frameRdata := rfl
@[simp] theorem State.setBufBase_pending (v : Word) : (s.setBufBase v).pending = s.pending := rfl
@[simp] theorem State.setBufBase_tick (v : Word) : (s.setBufBase v).tick = s.tick := rfl

/-! ### TRIG_CTRL is written (R46) -/

@[simp] theorem State.setTrig_st (e : Bool) (x : Half) : (s.setTrig e x).st = s.st := rfl
@[simp] theorem State.setTrig_pidx (e : Bool) (x : Half) : (s.setTrig e x).pidx = s.pidx := rfl
@[simp] theorem State.setTrig_iter (e : Bool) (x : Half) : (s.setTrig e x).iter = s.iter := rfl
@[simp] theorem State.setTrig_sub (e : Bool) (x : Half) : (s.setTrig e x).sub = s.sub := rfl
@[simp] theorem State.setTrig_tcnt (e : Bool) (x : Half) : (s.setTrig e x).tcnt = s.tcnt := rfl
@[simp] theorem State.setTrig_smpA (e : Bool) (x : Half) : (s.setTrig e x).smpA = s.smpA := rfl
@[simp] theorem State.setTrig_smpB (e : Bool) (x : Half) : (s.setTrig e x).smpB = s.smpB := rfl
@[simp] theorem State.setTrig_expL (e : Bool) (x : Half) : (s.setTrig e x).expL = s.expL := rfl
@[simp] theorem State.setTrig_baseL (e : Bool) (x : Half) : (s.setTrig e x).baseL = s.baseL := rfl
@[simp] theorem State.setTrig_tenL (e : Bool) (x : Half) : (s.setTrig e x).tenL = s.tenL := rfl
@[simp] theorem State.setTrig_tidxL (e : Bool) (x : Half) : (s.setTrig e x).tidxL = s.tidxL := rfl
@[simp] theorem State.setTrig_usLeft (e : Bool) (x : Half) : (s.setTrig e x).usLeft = s.usLeft := rfl
@[simp] theorem State.setTrig_presc (e : Bool) (x : Half) : (s.setTrig e x).presc = s.presc := rfl
@[simp] theorem State.setTrig_exposureUs (e : Bool) (x : Half) : (s.setTrig e x).exposureUs = s.exposureUs := rfl
@[simp] theorem State.setTrig_frameLen (e : Bool) (x : Half) : (s.setTrig e x).frameLen = s.frameLen := rfl
@[simp] theorem State.setTrig_bufBase (e : Bool) (x : Half) : (s.setTrig e x).bufBase = s.bufBase := rfl
@[simp] theorem State.setTrig_trigEn (e : Bool) (x : Half) : (s.setTrig e x).trigEn = e := rfl
@[simp] theorem State.setTrig_trigIndex (e : Bool) (x : Half) : (s.setTrig e x).trigIndex = x := rfl
@[simp] theorem State.setTrig_pulseCount (e : Bool) (x : Half) : (s.setTrig e x).pulseCount = s.pulseCount := rfl
@[simp] theorem State.setTrig_frameCount (e : Bool) (x : Half) : (s.setTrig e x).frameCount = s.frameCount := rfl
@[simp] theorem State.setTrig_flushed (e : Bool) (x : Half) : (s.setTrig e x).flushed = s.flushed := rfl
@[simp] theorem State.setTrig_cmdErr (e : Bool) (x : Half) : (s.setTrig e x).cmdErr = s.cmdErr := rfl
@[simp] theorem State.setTrig_lenErr (e : Bool) (x : Half) : (s.setTrig e x).lenErr = s.lenErr := rfl
@[simp] theorem State.setTrig_addrErr (e : Bool) (x : Half) : (s.setTrig e x).addrErr = s.addrErr := rfl
@[simp] theorem State.setTrig_busRdata (e : Bool) (x : Half) : (s.setTrig e x).busRdata = s.busRdata := rfl
@[simp] theorem State.setTrig_ports (e : Bool) (x : Half) : (s.setTrig e x).ports = s.ports := rfl
@[simp] theorem State.setTrig_events (e : Bool) (x : Half) : (s.setTrig e x).events = s.events := rfl
@[simp] theorem State.setTrig_mem (e : Bool) (x : Half) : (s.setTrig e x).mem = s.mem := rfl
@[simp] theorem State.setTrig_memBefore (e : Bool) (x : Half) : (s.setTrig e x).memBefore = s.memBefore := rfl
@[simp] theorem State.setTrig_frameRdata (e : Bool) (x : Half) : (s.setTrig e x).frameRdata = s.frameRdata := rfl
@[simp] theorem State.setTrig_pending (e : Bool) (x : Half) : (s.setTrig e x).pending = s.pending := rfl
@[simp] theorem State.setTrig_tick (e : Bool) (x : Half) : (s.setTrig e x).tick = s.tick := rfl

/-! ### a cycle of a phase passes (R141) -/

@[simp] theorem State.countPhase_st : s.countPhase.st = s.st := rfl
@[simp] theorem State.countPhase_pidx : s.countPhase.pidx = s.pidx := rfl
@[simp] theorem State.countPhase_iter : s.countPhase.iter = s.iter := rfl
@[simp] theorem State.countPhase_sub : s.countPhase.sub = s.sub := rfl
@[simp] theorem State.countPhase_tcnt : s.countPhase.tcnt = s.tcnt + 1 := rfl
@[simp] theorem State.countPhase_smpA : s.countPhase.smpA = s.smpA := rfl
@[simp] theorem State.countPhase_smpB : s.countPhase.smpB = s.smpB := rfl
@[simp] theorem State.countPhase_expL : s.countPhase.expL = s.expL := rfl
@[simp] theorem State.countPhase_baseL : s.countPhase.baseL = s.baseL := rfl
@[simp] theorem State.countPhase_tenL : s.countPhase.tenL = s.tenL := rfl
@[simp] theorem State.countPhase_tidxL : s.countPhase.tidxL = s.tidxL := rfl
@[simp] theorem State.countPhase_usLeft : s.countPhase.usLeft = s.usLeft := rfl
@[simp] theorem State.countPhase_presc : s.countPhase.presc = s.presc := rfl
@[simp] theorem State.countPhase_exposureUs : s.countPhase.exposureUs = s.exposureUs := rfl
@[simp] theorem State.countPhase_frameLen : s.countPhase.frameLen = s.frameLen := rfl
@[simp] theorem State.countPhase_bufBase : s.countPhase.bufBase = s.bufBase := rfl
@[simp] theorem State.countPhase_trigEn : s.countPhase.trigEn = s.trigEn := rfl
@[simp] theorem State.countPhase_trigIndex : s.countPhase.trigIndex = s.trigIndex := rfl
@[simp] theorem State.countPhase_pulseCount : s.countPhase.pulseCount = s.pulseCount := rfl
@[simp] theorem State.countPhase_frameCount : s.countPhase.frameCount = s.frameCount := rfl
@[simp] theorem State.countPhase_flushed : s.countPhase.flushed = s.flushed := rfl
@[simp] theorem State.countPhase_cmdErr : s.countPhase.cmdErr = s.cmdErr := rfl
@[simp] theorem State.countPhase_lenErr : s.countPhase.lenErr = s.lenErr := rfl
@[simp] theorem State.countPhase_addrErr : s.countPhase.addrErr = s.addrErr := rfl
@[simp] theorem State.countPhase_busRdata : s.countPhase.busRdata = s.busRdata := rfl
@[simp] theorem State.countPhase_ports : s.countPhase.ports = s.ports := rfl
@[simp] theorem State.countPhase_events : s.countPhase.events = s.events := rfl
@[simp] theorem State.countPhase_mem : s.countPhase.mem = s.mem := rfl
@[simp] theorem State.countPhase_memBefore : s.countPhase.memBefore = s.memBefore := rfl
@[simp] theorem State.countPhase_frameRdata : s.countPhase.frameRdata = s.frameRdata := rfl
@[simp] theorem State.countPhase_pending : s.countPhase.pending = s.pending := rfl
@[simp] theorem State.countPhase_tick : s.countPhase.tick = s.tick := rfl

/-! ### a cycle of a microsecond passes (R150) -/

@[simp] theorem State.countPresc_st : s.countPresc.st = s.st := rfl
@[simp] theorem State.countPresc_pidx : s.countPresc.pidx = s.pidx := rfl
@[simp] theorem State.countPresc_iter : s.countPresc.iter = s.iter := rfl
@[simp] theorem State.countPresc_sub : s.countPresc.sub = s.sub := rfl
@[simp] theorem State.countPresc_tcnt : s.countPresc.tcnt = s.tcnt := rfl
@[simp] theorem State.countPresc_smpA : s.countPresc.smpA = s.smpA := rfl
@[simp] theorem State.countPresc_smpB : s.countPresc.smpB = s.smpB := rfl
@[simp] theorem State.countPresc_expL : s.countPresc.expL = s.expL := rfl
@[simp] theorem State.countPresc_baseL : s.countPresc.baseL = s.baseL := rfl
@[simp] theorem State.countPresc_tenL : s.countPresc.tenL = s.tenL := rfl
@[simp] theorem State.countPresc_tidxL : s.countPresc.tidxL = s.tidxL := rfl
@[simp] theorem State.countPresc_usLeft : s.countPresc.usLeft = s.usLeft := rfl
@[simp] theorem State.countPresc_presc : s.countPresc.presc = s.presc + 1 := rfl
@[simp] theorem State.countPresc_exposureUs : s.countPresc.exposureUs = s.exposureUs := rfl
@[simp] theorem State.countPresc_frameLen : s.countPresc.frameLen = s.frameLen := rfl
@[simp] theorem State.countPresc_bufBase : s.countPresc.bufBase = s.bufBase := rfl
@[simp] theorem State.countPresc_trigEn : s.countPresc.trigEn = s.trigEn := rfl
@[simp] theorem State.countPresc_trigIndex : s.countPresc.trigIndex = s.trigIndex := rfl
@[simp] theorem State.countPresc_pulseCount : s.countPresc.pulseCount = s.pulseCount := rfl
@[simp] theorem State.countPresc_frameCount : s.countPresc.frameCount = s.frameCount := rfl
@[simp] theorem State.countPresc_flushed : s.countPresc.flushed = s.flushed := rfl
@[simp] theorem State.countPresc_cmdErr : s.countPresc.cmdErr = s.cmdErr := rfl
@[simp] theorem State.countPresc_lenErr : s.countPresc.lenErr = s.lenErr := rfl
@[simp] theorem State.countPresc_addrErr : s.countPresc.addrErr = s.addrErr := rfl
@[simp] theorem State.countPresc_busRdata : s.countPresc.busRdata = s.busRdata := rfl
@[simp] theorem State.countPresc_ports : s.countPresc.ports = s.ports := rfl
@[simp] theorem State.countPresc_events : s.countPresc.events = s.events := rfl
@[simp] theorem State.countPresc_mem : s.countPresc.mem = s.mem := rfl
@[simp] theorem State.countPresc_memBefore : s.countPresc.memBefore = s.memBefore := rfl
@[simp] theorem State.countPresc_frameRdata : s.countPresc.frameRdata = s.frameRdata := rfl
@[simp] theorem State.countPresc_pending : s.countPresc.pending = s.pending := rfl
@[simp] theorem State.countPresc_tick : s.countPresc.tick = s.tick := rfl

/-! ### what a cycle showed is recorded (R13, R51) -/

@[simp] theorem State.record_st (o : Ports) (e : List Event) : (s.record o e).st = s.st := rfl
@[simp] theorem State.record_pidx (o : Ports) (e : List Event) : (s.record o e).pidx = s.pidx := rfl
@[simp] theorem State.record_iter (o : Ports) (e : List Event) : (s.record o e).iter = s.iter := rfl
@[simp] theorem State.record_sub (o : Ports) (e : List Event) : (s.record o e).sub = s.sub := rfl
@[simp] theorem State.record_tcnt (o : Ports) (e : List Event) : (s.record o e).tcnt = s.tcnt := rfl
@[simp] theorem State.record_smpA (o : Ports) (e : List Event) : (s.record o e).smpA = s.smpA := rfl
@[simp] theorem State.record_smpB (o : Ports) (e : List Event) : (s.record o e).smpB = s.smpB := rfl
@[simp] theorem State.record_expL (o : Ports) (e : List Event) : (s.record o e).expL = s.expL := rfl
@[simp] theorem State.record_baseL (o : Ports) (e : List Event) : (s.record o e).baseL = s.baseL := rfl
@[simp] theorem State.record_tenL (o : Ports) (e : List Event) : (s.record o e).tenL = s.tenL := rfl
@[simp] theorem State.record_tidxL (o : Ports) (e : List Event) : (s.record o e).tidxL = s.tidxL := rfl
@[simp] theorem State.record_usLeft (o : Ports) (e : List Event) : (s.record o e).usLeft = s.usLeft := rfl
@[simp] theorem State.record_presc (o : Ports) (e : List Event) : (s.record o e).presc = s.presc := rfl
@[simp] theorem State.record_exposureUs (o : Ports) (e : List Event) : (s.record o e).exposureUs = s.exposureUs := rfl
@[simp] theorem State.record_frameLen (o : Ports) (e : List Event) : (s.record o e).frameLen = s.frameLen := rfl
@[simp] theorem State.record_bufBase (o : Ports) (e : List Event) : (s.record o e).bufBase = s.bufBase := rfl
@[simp] theorem State.record_trigEn (o : Ports) (e : List Event) : (s.record o e).trigEn = s.trigEn := rfl
@[simp] theorem State.record_trigIndex (o : Ports) (e : List Event) : (s.record o e).trigIndex = s.trigIndex := rfl
@[simp] theorem State.record_pulseCount (o : Ports) (e : List Event) : (s.record o e).pulseCount = s.pulseCount := rfl
@[simp] theorem State.record_frameCount (o : Ports) (e : List Event) : (s.record o e).frameCount = s.frameCount := rfl
@[simp] theorem State.record_flushed (o : Ports) (e : List Event) : (s.record o e).flushed = s.flushed := rfl
@[simp] theorem State.record_cmdErr (o : Ports) (e : List Event) : (s.record o e).cmdErr = s.cmdErr := rfl
@[simp] theorem State.record_lenErr (o : Ports) (e : List Event) : (s.record o e).lenErr = s.lenErr := rfl
@[simp] theorem State.record_addrErr (o : Ports) (e : List Event) : (s.record o e).addrErr = s.addrErr := rfl
@[simp] theorem State.record_busRdata (o : Ports) (e : List Event) : (s.record o e).busRdata = s.busRdata := rfl
@[simp] theorem State.record_ports (o : Ports) (e : List Event) : (s.record o e).ports = o := rfl
@[simp] theorem State.record_events (o : Ports) (e : List Event) : (s.record o e).events = e := rfl
@[simp] theorem State.record_mem (o : Ports) (e : List Event) : (s.record o e).mem = s.mem := rfl
@[simp] theorem State.record_memBefore (o : Ports) (e : List Event) : (s.record o e).memBefore = s.memBefore := rfl
@[simp] theorem State.record_frameRdata (o : Ports) (e : List Event) : (s.record o e).frameRdata = s.frameRdata := rfl
@[simp] theorem State.record_pending (o : Ports) (e : List Event) : (s.record o e).pending = s.pending := rfl
@[simp] theorem State.record_tick (o : Ports) (e : List Event) : (s.record o e).tick = s.tick := rfl

/-! ### the block is reset (R52) -/

@[simp] theorem State.resetBlock_st : s.resetBlock.st = State.reset.st := rfl
@[simp] theorem State.resetBlock_pidx : s.resetBlock.pidx = State.reset.pidx := rfl
@[simp] theorem State.resetBlock_iter : s.resetBlock.iter = State.reset.iter := rfl
@[simp] theorem State.resetBlock_sub : s.resetBlock.sub = State.reset.sub := rfl
@[simp] theorem State.resetBlock_tcnt : s.resetBlock.tcnt = State.reset.tcnt := rfl
@[simp] theorem State.resetBlock_smpA : s.resetBlock.smpA = State.reset.smpA := rfl
@[simp] theorem State.resetBlock_smpB : s.resetBlock.smpB = State.reset.smpB := rfl
@[simp] theorem State.resetBlock_expL : s.resetBlock.expL = State.reset.expL := rfl
@[simp] theorem State.resetBlock_baseL : s.resetBlock.baseL = State.reset.baseL := rfl
@[simp] theorem State.resetBlock_tenL : s.resetBlock.tenL = State.reset.tenL := rfl
@[simp] theorem State.resetBlock_tidxL : s.resetBlock.tidxL = State.reset.tidxL := rfl
@[simp] theorem State.resetBlock_usLeft : s.resetBlock.usLeft = State.reset.usLeft := rfl
@[simp] theorem State.resetBlock_presc : s.resetBlock.presc = State.reset.presc := rfl
@[simp] theorem State.resetBlock_exposureUs : s.resetBlock.exposureUs = State.reset.exposureUs := rfl
@[simp] theorem State.resetBlock_frameLen : s.resetBlock.frameLen = State.reset.frameLen := rfl
@[simp] theorem State.resetBlock_bufBase : s.resetBlock.bufBase = State.reset.bufBase := rfl
@[simp] theorem State.resetBlock_trigEn : s.resetBlock.trigEn = State.reset.trigEn := rfl
@[simp] theorem State.resetBlock_trigIndex : s.resetBlock.trigIndex = State.reset.trigIndex := rfl
@[simp] theorem State.resetBlock_pulseCount : s.resetBlock.pulseCount = State.reset.pulseCount := rfl
@[simp] theorem State.resetBlock_frameCount : s.resetBlock.frameCount = State.reset.frameCount := rfl
@[simp] theorem State.resetBlock_flushed : s.resetBlock.flushed = State.reset.flushed := rfl
@[simp] theorem State.resetBlock_cmdErr : s.resetBlock.cmdErr = State.reset.cmdErr := rfl
@[simp] theorem State.resetBlock_lenErr : s.resetBlock.lenErr = State.reset.lenErr := rfl
@[simp] theorem State.resetBlock_addrErr : s.resetBlock.addrErr = State.reset.addrErr := rfl
@[simp] theorem State.resetBlock_busRdata : s.resetBlock.busRdata = State.reset.busRdata := rfl
@[simp] theorem State.resetBlock_ports : s.resetBlock.ports = State.reset.ports := rfl
@[simp] theorem State.resetBlock_events : s.resetBlock.events = State.reset.events := rfl
@[simp] theorem State.resetBlock_mem : s.resetBlock.mem = s.mem := rfl
@[simp] theorem State.resetBlock_memBefore : s.resetBlock.memBefore = s.memBefore := rfl
@[simp] theorem State.resetBlock_frameRdata : s.resetBlock.frameRdata = s.frameRdata := rfl
@[simp] theorem State.resetBlock_pending : s.resetBlock.pending = s.pending := rfl
@[simp] theorem State.resetBlock_tick : s.resetBlock.tick = s.tick := rfl

/-! ### the agents' part of a cycle (R94) -/

@[simp] theorem State.settle_st (t : State) (d : Draws) (m : Stimulus) : (s.settle t d m).st = t.st := rfl
@[simp] theorem State.settle_pidx (t : State) (d : Draws) (m : Stimulus) : (s.settle t d m).pidx = t.pidx := rfl
@[simp] theorem State.settle_iter (t : State) (d : Draws) (m : Stimulus) : (s.settle t d m).iter = t.iter := rfl
@[simp] theorem State.settle_sub (t : State) (d : Draws) (m : Stimulus) : (s.settle t d m).sub = t.sub := rfl
@[simp] theorem State.settle_tcnt (t : State) (d : Draws) (m : Stimulus) : (s.settle t d m).tcnt = t.tcnt := rfl
@[simp] theorem State.settle_smpA (t : State) (d : Draws) (m : Stimulus) : (s.settle t d m).smpA = t.smpA := rfl
@[simp] theorem State.settle_smpB (t : State) (d : Draws) (m : Stimulus) : (s.settle t d m).smpB = t.smpB := rfl
@[simp] theorem State.settle_expL (t : State) (d : Draws) (m : Stimulus) : (s.settle t d m).expL = t.expL := rfl
@[simp] theorem State.settle_baseL (t : State) (d : Draws) (m : Stimulus) : (s.settle t d m).baseL = t.baseL := rfl
@[simp] theorem State.settle_tenL (t : State) (d : Draws) (m : Stimulus) : (s.settle t d m).tenL = t.tenL := rfl
@[simp] theorem State.settle_tidxL (t : State) (d : Draws) (m : Stimulus) : (s.settle t d m).tidxL = t.tidxL := rfl
@[simp] theorem State.settle_usLeft (t : State) (d : Draws) (m : Stimulus) : (s.settle t d m).usLeft = t.usLeft := rfl
@[simp] theorem State.settle_presc (t : State) (d : Draws) (m : Stimulus) : (s.settle t d m).presc = t.presc := rfl
@[simp] theorem State.settle_exposureUs (t : State) (d : Draws) (m : Stimulus) :
    (s.settle t d m).exposureUs = t.exposureUs := rfl
@[simp] theorem State.settle_frameLen (t : State) (d : Draws) (m : Stimulus) :
    (s.settle t d m).frameLen = t.frameLen := rfl
@[simp] theorem State.settle_bufBase (t : State) (d : Draws) (m : Stimulus) :
    (s.settle t d m).bufBase = t.bufBase := rfl
@[simp] theorem State.settle_trigEn (t : State) (d : Draws) (m : Stimulus) : (s.settle t d m).trigEn = t.trigEn := rfl
@[simp] theorem State.settle_trigIndex (t : State) (d : Draws) (m : Stimulus) :
    (s.settle t d m).trigIndex = t.trigIndex := rfl
@[simp] theorem State.settle_pulseCount (t : State) (d : Draws) (m : Stimulus) :
    (s.settle t d m).pulseCount = t.pulseCount := rfl
@[simp] theorem State.settle_frameCount (t : State) (d : Draws) (m : Stimulus) :
    (s.settle t d m).frameCount = t.frameCount := rfl
@[simp] theorem State.settle_flushed (t : State) (d : Draws) (m : Stimulus) :
    (s.settle t d m).flushed = t.flushed := rfl
@[simp] theorem State.settle_cmdErr (t : State) (d : Draws) (m : Stimulus) : (s.settle t d m).cmdErr = t.cmdErr := rfl
@[simp] theorem State.settle_lenErr (t : State) (d : Draws) (m : Stimulus) : (s.settle t d m).lenErr = t.lenErr := rfl
@[simp] theorem State.settle_addrErr (t : State) (d : Draws) (m : Stimulus) :
    (s.settle t d m).addrErr = t.addrErr := rfl
@[simp] theorem State.settle_busRdata (t : State) (d : Draws) (m : Stimulus) :
    (s.settle t d m).busRdata = t.busRdata := rfl
@[simp] theorem State.settle_ports (t : State) (d : Draws) (m : Stimulus) : (s.settle t d m).ports = t.ports := rfl
@[simp] theorem State.settle_events (t : State) (d : Draws) (m : Stimulus) : (s.settle t d m).events = t.events := rfl
@[simp] theorem State.settle_mem (t : State) (d : Draws) (m : Stimulus) :
    (s.settle t d m).mem = m.frame.apply t.mem := rfl
@[simp] theorem State.settle_memBefore (t : State) (d : Draws) (m : Stimulus) :
    (s.settle t d m).memBefore = if s.st.capturing then s.memBefore else m.frame.apply t.mem := rfl
@[simp] theorem State.settle_frameRdata (t : State) (d : Draws) (m : Stimulus) :
    (s.settle t d m).frameRdata = s.nextFrameRdata d m t.mem := rfl
@[simp] theorem State.settle_pending (t : State) (d : Draws) (m : Stimulus) :
    (s.settle t d m).pending = s.pending.tail := rfl
@[simp] theorem State.settle_tick (t : State) (d : Draws) (m : Stimulus) : (s.settle t d m).tick = s.tick + 1 := rfl

end Sys2Proof.Machine
end

