-- ==== Sys2Proof/Laws/Exec.lean ====
section
/-! SUPPORT. What the meanings can answer: a host operation always gives a next state, and it is one of the few named here. -/

namespace Sys2Proof.Machine

@[simp] theorem State.answer_eq (s : State) (v : Word) : s.answer v = .next (s.drive v) := rfl

@[simp] theorem State.endWrite_eq (s : State) : s.endWrite = .next (s.drive 0#32) := rfl

theorem State.busy_eq_true {s : State} : s.busy = true ↔ s.st ≠ .idle := by simp [State.busy]

theorem State.busy_eq_false {s : State} : s.busy = false ↔ s.st = .idle := by simp [State.busy]

/-- INIT, seen from outside: turned away while busy, else the flush begins. -/
theorem execInit_eq (s : State) :
    execInit s = .next ((if s.busy then s.raiseCmdErr else (s.setFlushed false).enter .flushA 1 0 0).drive 0#32) := by
  unfold execInit; split <;> rfl

/-- CAPTURE, seen from outside: turned away, or the configuration is latched and the start marker begins. -/
theorem execCapture_eq (s : State) :
    execCapture s = .next ((if s.busy then s.raiseCmdErr
      else if s.lenBad || s.addrBad then s.raiseArgErrs s.lenBad s.addrBad
      else (s.latch).enter .capSiStart 0 0 0).drive 0#32) := by
  unfold execCapture
  split
  · rfl
  · split <;> rfl

/-- What a host operation can do to the state, `bus_rdata` apart: one constructor for each effect. -/
inductive HostEffect (s : State) : State → Prop where
  | none : HostEffect s s
  | cmdErr : HostEffect s s.raiseCmdErr
  | argErrs : s.st = .idle → HostEffect s (s.raiseArgErrs s.lenBad s.addrBad)
  | clearErrs : HostEffect s s.clearErrs
  | startFlush : s.st = .idle → HostEffect s ((s.setFlushed false).enter .flushA 1 0 0)
  | startCapture : s.st = .idle → s.lenBad = false → s.addrBad = false → HostEffect s ((s.latch).enter .capSiStart 0 0 0)
  | exposure (v : Word) : HostEffect s (s.setExposure v)
  | frameLen (v : Word) : HostEffect s (s.setFrameLen v)
  | bufBase (v : Word) : HostEffect s (s.setBufBase v)
  | trig (e : Bool) (x : Half) : HostEffect s (s.setTrig e x)

/-- Everything a host operation can leave. -/
theorem exec_effect {i : Instr} {s t : State} (h : exec i s = .next t) : ∃ v u, HostEffect s u ∧ t = u.drive v := by
  cases i <;>
    simp only [exec, execNop, execClrerr, execCmdRsv, execRdCmd, execRdStatus, execRdExposure, execRdFrameLen,
      execRdBufBase, execRdTrigCtrl, execRdPulseCount, execRdFrameCount, execWrStatus, execWrExposure, execWrFrameLen,
      execWrBufBase, execWrTrigCtrl, execWrPulseCount, execWrFrameCount, State.answer_eq, State.endWrite_eq,
      execInit_eq, execCapture_eq, Host.Outcome.next.injEq] at h
  case init =>
    refine ⟨_, _, ?_, h.symm⟩
    cases hb : s.busy
    · exact .startFlush (State.busy_eq_false.1 hb)
    · exact .cmdErr
  case capture =>
    refine ⟨_, _, ?_, h.symm⟩
    cases hb : s.busy
    · have hi := State.busy_eq_false.1 hb
      cases hl : s.lenBad
      · cases ha : s.addrBad
        · exact .startCapture hi hl ha
        · simpa [hl, ha] using HostEffect.argErrs hi
      · simpa [hl] using HostEffect.argErrs hi
    · exact .cmdErr
  case cmdRsv op rsv => exact ⟨_, _, .cmdErr, h.symm⟩
  case clrerr => exact ⟨_, _, .clearErrs, h.symm⟩
  case wrExposure x => exact ⟨_, _, .exposure x, h.symm⟩
  case wrFrameLen x => exact ⟨_, _, .frameLen x, h.symm⟩
  case wrBufBase x => exact ⟨_, _, .bufBase x, h.symm⟩
  case wrTrigCtrl x => exact ⟨_, _, .trig _ _, h.symm⟩
  all_goals exact ⟨_, _, .none, h.symm⟩

end Sys2Proof.Machine
end

