-- ==== Sys2Proof/Laws/Cycle.lean ====
section
/-! SUPPORT. What one clock cycle can do (the inversion lemma every claim about `cycle` and `step` starts from), its
projections, and the laws of a run of cycles. -/

namespace Sys2Proof.Machine

/-- `step` is `cycle` at this implementation's parameters and draws. -/
theorem step_eq (s : State) : step s = cycle Config.params (Config.draws s.tick) s := rfl

/-- Everything a cycle that goes on can be: no agent breaks the frame's ownership, and it is a reset cycle, or the host's
part gave a next state and the cycle was ended. -/
theorem cycle_next {p : Params} {d : Draws} {s t : State} (h : cycle p d s = .next t) :
    s.conflicts s.stimulus = false ∧
      ((s.stimulus.rst = true ∧ t = s.resetCycle d s.stimulus) ∨
       (s.stimulus.rst = false ∧ ∃ u, s.hostCycle p s.stimulus = .next u ∧ t = s.endCycle u p d s.stimulus)) := by
  unfold cycle at h
  split at h
  · cases h
  · next hc =>
    refine ⟨by simpa using hc, ?_⟩
    split at h
    · next hr => cases h; exact .inl ⟨hr, rfl⟩
    · next hr =>
      refine .inr ⟨by simpa using hr, ?_⟩
      split at h
      · next u hu => cases h; exact ⟨u, hu, rfl⟩
      · cases h
      · cases h

/-- The host's part of a cycle leaves the state with `bus_rdata` at 0, or is the operation of its transaction. -/
theorem hostCycle_next {p : Params} {s u : State} {m : Stimulus} (h : s.hostCycle p m = .next u) :
    (busUse p m.access = .idle ∧ u = s.drive 0#32) ∨
      ∃ x, busUse p m.access = .transaction x ∧ exec (decode x) s = .next u := by
  unfold State.hostCycle at h
  split at h
  · next hb => cases h; exact .inl ⟨hb, rfl⟩
  · next x hb => exact .inr ⟨x, hb, h⟩
  · cases h

/-- With nothing waiting, a cycle applies nothing from outside. -/
theorem State.stimulus_nil {s : State} (h : s.pending = []) : s.stimulus = Stimulus.none := by
  simp [State.stimulus, h]

/-- A cycle with nothing applied from outside always goes on. -/
theorem cycle_quiet {p : Params} {d : Draws} {s : State} (h : s.pending = []) :
    cycle p d s = .next (s.endCycle (s.drive 0#32) p d Stimulus.none) := by
  simp [cycle, State.stimulus_nil h, State.conflicts, Stimulus.none, State.hostCycle, busUse]

/-! ### Frame reads (R94) -/

/-- Everything a frame read can return: the old byte or the new one where it races with the capture that owns the byte, and
else the byte as it stands. -/
theorem State.frameReadByte_cases (s : State) (d : Draws) (after : Memory) (a : Addr) :
    (s.owns a = true ∧ d.raceOld = true ∧ s.frameReadByte d after a = s.memBefore.byte a) ∨
      (s.owns a = true ∧ d.raceOld = false ∧ s.frameReadByte d after a = after.byte a) ∨
      (s.owns a = false ∧ s.frameReadByte d after a = s.mem.byte a) := by
  cases ho : s.owns a <;> cases hr : d.raceOld <;> simp [State.frameReadByte, ho, hr]

@[simp] theorem State.nextFrameRdata_read (s : State) (d : Draws) (m : Stimulus) (after : Memory) (a : Addr)
    (h : m.frame = .read a) : s.nextFrameRdata d m after = s.frameReadByte d after a := by
  simp [State.nextFrameRdata, h]

/-! ### The end of a cycle, field by field -/

variable (s t : State) (p : Params) (d : Draws) (m : Stimulus)

@[simp] theorem State.endCycle_ports : (s.endCycle t p d m).ports = s.outputs := rfl
@[simp] theorem State.endCycle_events : (s.endCycle t p d m).events = s.cycleEvents p d := rfl
@[simp] theorem State.endCycle_tick : (s.endCycle t p d m).tick = s.tick + 1 := rfl
@[simp] theorem State.endCycle_pending : (s.endCycle t p d m).pending = s.pending.tail := rfl
@[simp] theorem State.resetCycle_pending : (s.resetCycle d m).pending = s.pending.tail := rfl
@[simp] theorem State.resetCycle_tick : (s.resetCycle d m).tick = s.tick + 1 := rfl

/-- In IDLE the host's part is all that happens to the block (R321). -/
theorem State.endCycle_idle (h : s.st = .idle) :
    s.endCycle t p d m = s.settle (t.record s.outputs (s.cycleEvents p d)) d m := by
  simp [State.endCycle, h]

/-- Elsewhere the running slot gets its cycle (R321). -/
theorem State.endCycle_busy (h : s.st ≠ .idle) :
    s.endCycle t p d m = s.settle ((t.sequence p d).record s.outputs (s.cycleEvents p d)) d m := by
  simp [State.endCycle, h]

/-! ### Runs -/

@[simp] theorem runCycles_zero (d : Nat → Draws) : runCycles p d 0 s = some (s, []) := rfl

/-- A run is a cycle and then a run. -/
theorem runCycles_succ {d : Nat → Draws} {n : Nat} (h : cycle p (d s.tick) s = .next t) :
    runCycles p d (n + 1) s = (runCycles p d n t).map fun r => (r.1, t.events ++ r.2) := by
  simp [runCycles, h]

/-- A run in two parts. -/
theorem runCycles_add {d : Nat → Draws} {n k : Nat} {e : List Event} (h : runCycles p d n s = some (t, e)) :
    runCycles p d (n + k) s = (runCycles p d k t).map fun r => (r.1, e ++ r.2) := by
  induction n generalizing s e with
  | zero =>
    simp only [runCycles_zero, Option.some.injEq, Prod.mk.injEq] at h
    obtain ⟨rfl, rfl⟩ := h
    simp
  | succ n ih =>
    rw [Nat.add_right_comm]
    cases hc : cycle p (d s.tick) s with
    | next u =>
      rw [runCycles_succ s u p hc] at h ⊢
      obtain ⟨r, hr, hre⟩ := Option.map_eq_some_iff.1 h
      obtain ⟨rfl, rfl⟩ := Prod.mk.injEq .. ▸ hre
      rw [ih u (e := r.2) hr]
      cases runCycles p d k r.1 <;> simp
    | fault r => simp [runCycles, hc] at h
    | refused r => simp [runCycles, hc] at h

end Sys2Proof.Machine
end

