-- ==== Sys2Proof/Laws/Decode.lean ====
section
/-! SUPPORT. The fields of a host transaction: what `descriptorOf` and `dataOf` read of what `transactionOf` builds, and
back. -/

namespace Sys2Proof

@[simp] theorem descriptorOf_transactionOf (k : BitVec 4) (v : Word) : descriptorOf (transactionOf k v) = k := by
  unfold descriptorOf transactionOf
  ext i hi
  simp only [BitVec.getElem_extractLsb', BitVec.getLsbD_append]
  rw [if_neg (by omega), Nat.add_sub_cancel_left, BitVec.getLsbD_eq_getElem]

@[simp] theorem dataOf_transactionOf (k : BitVec 4) (v : Word) : dataOf (transactionOf k v) = v := by
  unfold dataOf transactionOf
  ext i hi
  rw [BitVec.getElem_extractLsb', BitVec.getLsbD_append, if_pos (by omega), Nat.zero_add, BitVec.getLsbD_eq_getElem]

/-- A transaction is its descriptor and its data (R111). -/
theorem transactionOf_parts (t : Transaction) : transactionOf (descriptorOf t) (dataOf t) = t := by
  unfold transactionOf descriptorOf dataOf
  ext i hi
  simp only [BitVec.getElem_append, BitVec.getElem_extractLsb']
  split
  all_goals
    rw [← BitVec.getLsbD_eq_getElem]
    congr 1
    omega

end Sys2Proof
end

