-- ==== Sys2Proof/Laws/Memory.lean ====
section
/-! SUPPORT. The frame memory: a read after a write (spec/20_memory.md R84), and every memory operation keeps the canonical
form. -/

namespace Sys2Proof.Machine

/-- The byte just stored is the byte read there. -/
theorem Memory.read_write_same (m : Memory) (a : Addr) (b : Byte) : (m.write a b).read a = some b := by
  induction m with
  | nil => simp [Memory.write, Memory.read]
  | cons c m ih =>
    unfold Memory.write
    split
    · simp [Memory.read]
    · split
      · simp [Memory.read]
      · rename_i h
        simp [Memory.read, Ne.symm h, ih]

/-- Every other address reads as before. -/
theorem Memory.read_write_other (m : Memory) {a x : Addr} (b : Byte) (hne : x ≠ a) :
    (m.write a b).read x = m.read x := by
  have hn : a.toNat ≠ x.toNat := fun h => hne (BitVec.eq_of_toNat_eq h.symm)
  induction m with
  | nil => simp [Memory.write, Memory.read, hn]
  | cons c m ih =>
    unfold Memory.write
    split
    · simp [Memory.read, hn]
    · split
      · rename_i h
        simp [Memory.read, hn, ← h]
      · simp [Memory.read, ih]

/-- A store seen from any address. -/
theorem Memory.read_write (m : Memory) (a x : Addr) (b : Byte) :
    (m.write a b).read x = if x = a then some b else m.read x := by
  split
  · next h => rw [h, Memory.read_write_same]
  · next h => exact Memory.read_write_other m b h

/-- The canonical form of a longer list, taken apart. -/
theorem Memory.wf_cons_cons (c d : Host.Cell) (m : Memory) :
    Memory.wf (c :: d :: m) = true ↔ c.1 < d.1 ∧ Memory.wf (d :: m) = true := by
  simp [Memory.wf]

/-- The first address of a store into a list. -/
theorem Memory.write_head (m : Memory) (a : Addr) (b : Byte) :
    ∃ c rest, m.write a b = c :: rest ∧ (c.1 = a.toNat ∨ ∃ d l, m = d :: l ∧ c.1 = d.1) := by
  cases m with
  | nil => exact ⟨_, _, rfl, .inl rfl⟩
  | cons d l =>
    unfold Memory.write
    split
    · exact ⟨_, _, rfl, .inl rfl⟩
    · split
      · exact ⟨_, _, rfl, .inl rfl⟩
      · exact ⟨_, _, rfl, .inr ⟨d, l, rfl, rfl⟩⟩

/-- A store keeps the canonical form. -/
theorem Memory.write_wf (m : Memory) (a : Addr) (b : Byte) (h : m.wf = true) : (m.write a b).wf = true := by
  have ha : a.toNat < 2 ^ 32 := a.isLt
  induction m with
  | nil => simpa [Memory.write, Memory.wf] using ha
  | cons c m ih =>
    unfold Memory.write
    split
    · next hlt => exact (Memory.wf_cons_cons _ _ _).2 ⟨hlt, h⟩
    · split
      · next heq =>
        cases m with
        | nil => simpa [Memory.wf] using ha
        | cons d l =>
          have h' := (Memory.wf_cons_cons _ _ _).1 h
          exact (Memory.wf_cons_cons _ _ _).2 ⟨heq ▸ h'.1, h'.2⟩
      · next hlt hne =>
        obtain ⟨e, rest, he, hcase⟩ := Memory.write_head m a b
        have hm : Memory.wf m = true := by
          cases m with
          | nil => rfl
          | cons d l => exact ((Memory.wf_cons_cons _ _ _).1 h).2
        have hrest := ih hm
        rw [he] at hrest ⊢
        refine (Memory.wf_cons_cons _ _ _).2 ⟨?_, hrest⟩
        rcases hcase with h1 | ⟨d, l, rfl, h1⟩
        · omega
        · exact h1 ▸ ((Memory.wf_cons_cons _ _ _).1 h).1

/-- Another agent's access keeps the canonical form. -/
theorem FrameAccess.apply_wf (f : FrameAccess) (m : Memory) (h : m.wf = true) : (f.apply m).wf = true := by
  cases f with
  | write a b => exact Memory.write_wf m a b h
  | quiet => exact h
  | read a => exact h

/-- The four writes of a readout iteration keep the canonical form. -/
theorem write4_wf (base : Word) (i : Nat) (a b : Half) (m : Memory) (h : m.wf = true) :
    (write4 base i a b m).wf = true := by
  simp only [write4, List.foldl_cons, List.foldl_nil]
  exact Memory.write_wf _ _ _ (Memory.write_wf _ _ _ (Memory.write_wf _ _ _ (Memory.write_wf _ _ _ h)))

end Sys2Proof.Machine
end

