-- ==== Sys2Proof/Laws/PerInstr.lean ====
section
/-! SUPPORT. Statements made once for each instruction: the encoding of every instruction matches its row of
spec/opcode_table.json (R112, R114, R117). -/

namespace Sys2Proof.Laws

/-- The "match" column of the instruction's row. -/
def rowMatch : Instr → Transaction
  | .nop => 0x800000000#36
  | .init => 0x800000001#36
  | .capture => 0x800000002#36
  | .clrerr => 0x800000003#36
  | .cmdRsv _ _ => 0x800000000#36
  | .rdCmd => 0x000000000#36
  | .rdStatus => 0x100000000#36
  | .rdExposure => 0x200000000#36
  | .rdFrameLen => 0x300000000#36
  | .rdBufBase => 0x400000000#36
  | .rdTrigCtrl => 0x500000000#36
  | .rdPulseCount => 0x600000000#36
  | .rdFrameCount => 0x700000000#36
  | .wrStatus _ => 0x900000000#36
  | .wrExposure _ => 0xA00000000#36
  | .wrFrameLen _ => 0xB00000000#36
  | .wrBufBase _ => 0xC00000000#36
  | .wrTrigCtrl _ => 0xD00000000#36
  | .wrPulseCount _ => 0xE00000000#36
  | .wrFrameCount _ => 0xF00000000#36

/-- The "mask" column of the instruction's row: the exact command rows fix every bit, every other row the descriptor. -/
def rowMask : Instr → Transaction
  | .nop | .init | .capture | .clrerr => 0xFFFFFFFFF#36
  | .cmdRsv _ _ => 0xF00000000#36
  | .rdCmd | .rdStatus | .rdExposure | .rdFrameLen | .rdBufBase | .rdTrigCtrl | .rdPulseCount | .rdFrameCount =>
    0xF00000000#36
  | .wrStatus _ | .wrExposure _ | .wrFrameLen _ | .wrBufBase _ | .wrTrigCtrl _ | .wrPulseCount _ | .wrFrameCount _ =>
    0xF00000000#36

/-- The mask of a row that fixes only the descriptor leaves the descriptor. -/
theorem and_descriptorMask (k : BitVec 4) (v : Word) : transactionOf k v &&& 0xF00000000#36 = transactionOf k 0#32 := by
  have h : (0xF00000000#36 : Transaction) = (0xF#4 : BitVec 4) ++ (0#32 : Word) := by decide
  rw [h, transactionOf, transactionOf, BitVec.and_append, BitVec.and_zero]
  congr 1
  exact BitVec.and_allOnes

/-- The encoding of an instruction matches its row. -/
def EncodingMatchesRow.Statement (i : Instr) : Prop := encode i &&& rowMask i = rowMatch i

theorem EncodingMatchesRow.nop : EncodingMatchesRow.Statement .nop := rfl
theorem EncodingMatchesRow.init : EncodingMatchesRow.Statement .init := rfl
theorem EncodingMatchesRow.capture : EncodingMatchesRow.Statement .capture := rfl
theorem EncodingMatchesRow.clrerr : EncodingMatchesRow.Statement .clrerr := rfl
theorem EncodingMatchesRow.cmdRsv (op : BitVec 8) (rsv : BitVec 24) : EncodingMatchesRow.Statement (.cmdRsv op rsv) :=
  and_descriptorMask _ _
theorem EncodingMatchesRow.rdCmd : EncodingMatchesRow.Statement .rdCmd := rfl
theorem EncodingMatchesRow.rdStatus : EncodingMatchesRow.Statement .rdStatus := rfl
theorem EncodingMatchesRow.rdExposure : EncodingMatchesRow.Statement .rdExposure := rfl
theorem EncodingMatchesRow.rdFrameLen : EncodingMatchesRow.Statement .rdFrameLen := rfl
theorem EncodingMatchesRow.rdBufBase : EncodingMatchesRow.Statement .rdBufBase := rfl
theorem EncodingMatchesRow.rdTrigCtrl : EncodingMatchesRow.Statement .rdTrigCtrl := rfl
theorem EncodingMatchesRow.rdPulseCount : EncodingMatchesRow.Statement .rdPulseCount := rfl
theorem EncodingMatchesRow.rdFrameCount : EncodingMatchesRow.Statement .rdFrameCount := rfl
theorem EncodingMatchesRow.wrStatus (v : Word) : EncodingMatchesRow.Statement (.wrStatus v) := and_descriptorMask _ _
theorem EncodingMatchesRow.wrExposure (v : Word) : EncodingMatchesRow.Statement (.wrExposure v) := and_descriptorMask _ _
theorem EncodingMatchesRow.wrFrameLen (v : Word) : EncodingMatchesRow.Statement (.wrFrameLen v) := and_descriptorMask _ _
theorem EncodingMatchesRow.wrBufBase (v : Word) : EncodingMatchesRow.Statement (.wrBufBase v) := and_descriptorMask _ _
theorem EncodingMatchesRow.wrTrigCtrl (v : Word) : EncodingMatchesRow.Statement (.wrTrigCtrl v) := and_descriptorMask _ _
theorem EncodingMatchesRow.wrPulseCount (v : Word) : EncodingMatchesRow.Statement (.wrPulseCount v) :=
  and_descriptorMask _ _
theorem EncodingMatchesRow.wrFrameCount (v : Word) : EncodingMatchesRow.Statement (.wrFrameCount v) :=
  and_descriptorMask _ _

end Sys2Proof.Laws
end

