-- ==== Sys2Proof/Laws/Sequencer.lean ====
section
/-! SUPPORT. The sequencer seen from outside: its part of the state (`seqView`) after a cycle depends only on its part
before it and on the draws; the slots a position can be in; and what the sequencer never writes. -/

namespace Sys2Proof.Machine

/-- Equal views agree field by field. -/
theorem seqView_eq {s t : State} (h : s.seqView = t.seqView) :
  s.st = t.st ∧ s.pidx = t.pidx ∧ s.iter = t.iter ∧ s.sub = t.sub ∧ s.tcnt = t.tcnt ∧ s.smpA = t.smpA ∧
    s.smpB = t.smpB ∧ s.expL = t.expL ∧
  s.baseL = t.baseL ∧ s.tenL = t.tenL ∧ s.tidxL = t.tidxL ∧ s.usLeft = t.usLeft ∧ s.presc = t.presc ∧
    s.pulseCount = t.pulseCount ∧ s.frameCount = t.frameCount ∧ s.flushed = t.flushed := by
  simpa [State.seqView] using h

/-- `advance` reads nothing but the sequencer's view. -/
theorem advance_view {s t : State} (h : s.seqView = t.seqView) : s.advance.seqView = t.advance.seqView := by
  obtain ⟨h1, h2, h3, h4, h5, h6, h7, h8, h9, h10, h11, h12, h13, h14, h15, h16⟩ := seqView_eq h
  unfold State.advance
  rw [h1]
  cases t.st <;> simp only [State.advanceBoot, State.advanceFlush, State.advanceSi, State.advanceProp,
    State.advanceRead, State.beginProp, State.beginExposure, h2, h3, h4, h8, h10, h11, State.finish] <;>
      (repeat' split) <;> simp_all [State.seqView]

/-- One cycle of the running slot reads nothing but the sequencer's view. -/
theorem sequence_view {s t : State} (p d) (h : s.seqView = t.seqView) : (s.sequence p d).seqView = (t.sequence p d).seqView := by
  obtain ⟨h1, h2, h3, h4, h5, h6, h7, h8, h9, h10, h11, h12, h13, h14, h15, h16⟩ := seqView_eq h
  have hs : s.slot = t.slot := by simp [State.slot, h1, h4]
  unfold State.sequence
  rw [hs]
  cases t.slot with
  | none => exact h
  | phase c v e =>
    simp only [State.phaseCycle, h5]
    split
    · exact advance_view h
    · simp_all [State.seqView]
  | trig => exact advance_view h
  | sample =>
    simp only [State.sampleCycle]
    split
    · exact advance_view (by simp_all [State.seqView])
    · exact h
  | write lane =>
    simp only [State.writeCycle]
    exact advance_view (by simp_all [State.seqView])
  | wait =>
    simp only [State.waitCycle, h13, h12]
    split
    · split
      · exact advance_view (by simp_all [State.seqView])
      · simp_all [State.seqView]
    · simp_all [State.seqView]

/-- The outputs are a function of the sequencer's view (R51). -/
theorem outputs_view {s t : State} (h : s.seqView = t.seqView) : s.outputs = t.outputs := by
  obtain ⟨h1, h2, h3, h4, h5, h6, h7, h8, h9, h10, h11, h12, h13, h14, h15, h16⟩ := seqView_eq h
  have hs : s.slot = t.slot := by simp [State.slot, h1, h4]
  have hl : ∀ l, s.laneAddr l = t.laneAddr l := by intro l; simp [State.laneAddr, h9, h3]
  have hd : ∀ l, s.laneData l = t.laneData l := by intro l; simp [State.laneData, h6, h7]
  unfold State.outputs; rw [hs]; cases t.slot <;> simp [State.restPorts, State.busy, h1, hl, hd]

/-- So are the events of a cycle. -/
theorem events_view {s t : State} (p d) (h : s.seqView = t.seqView) : s.cycleEvents p d = t.cycleEvents p d := by
  obtain ⟨h1, h2, h3, h4, h5, h6, h7, h8, h9, h10, h11, h12, h13, h14, h15, h16⟩ := seqView_eq h
  have hs : s.slot = t.slot := by simp [State.slot, h1, h4]
  have hl : ∀ l, s.laneAddr l = t.laneAddr l := by intro l; simp [State.laneAddr, h9, h3]
  have hd : ∀ l, s.laneData l = t.laneData l := by intro l; simp [State.laneData, h6, h7]
  have he : s.endEvents = t.endEvents := by simp [State.endEvents, h1, h2, h3, h4, h8]
  unfold State.cycleEvents; rw [hs]; cases t.slot <;> simp [hl, hd, he, h5]

/-- While a sequence runs, no host operation touches what it goes by (R265). -/
theorem hostCycle_view {p s u m} (h : State.hostCycle s p m = .next u) (hi : s.st ≠ .idle) : u.seqView = s.seqView := by
  rcases hostCycle_next h with ⟨_, rfl⟩ | ⟨x, _, hx⟩
  · rfl
  · obtain ⟨v, w, hw, rfl⟩ := exec_effect hx
    cases hw <;> simp_all [State.seqView]

theorem settle_view (s t d m) : (State.settle s t d m).seqView = t.seqView := rfl

theorem record_view (t o e) : (State.record t o e).seqView = t.seqView := rfl

/-- A cycle of a running sequence, seen by the sequencer. -/
theorem busy_cycle_view {p d s t} (h : cycle p d s = .next t) (hr : s.stimulus.rst = false) (hi : s.st ≠ .idle) :
   t.seqView = (s.sequence p d).seqView := by
  obtain ⟨hc, ⟨hr', _⟩ | ⟨_, u, hu, rfl⟩⟩ := cycle_next h
  · simp_all
  · rw [State.endCycle_busy _ _ _ _ _ hi, settle_view, record_view, sequence_view p d (hostCycle_view hu hi)]

/-- A cycle in IDLE is the host's operation and nothing else. -/
theorem idle_cycle {p d s t} (h : cycle p d s = .next t) (hr : s.stimulus.rst = false) (hi : s.st = .idle) :
   ∃ v u, HostEffect s u ∧ t = s.settle ((u.drive v).record s.outputs []) d s.stimulus := by
  obtain ⟨hc, ⟨hr', _⟩ | ⟨_, u, hu, rfl⟩⟩ := cycle_next h
  · simp_all
  · have he : s.cycleEvents p d = [] := by simp [State.cycleEvents, State.slot, hi, slotAt]
    rw [State.endCycle_idle _ _ _ _ _ hi, he]
    rcases hostCycle_next hu with ⟨_, rfl⟩ | ⟨x, _, hx⟩
    · exact ⟨_, _, .none, rfl⟩
    · obtain ⟨v, w, hw, rfl⟩ := exec_effect hx
      exact ⟨v, w, hw, rfl⟩

/-- Every slot a position can be in, with its levels and its event. -/
theorem slot_cases (s : State) : s.slot = .none ∨
  (∃ c v e, s.slot = .phase c v e ∧ ((s.st = .boot ∧ ((s.sub = 0) ∨ s.sub = 1) ∧ c = false ∧ v = false)
   ∨ ((s.st = .flushA ∨ s.st = .flushB ∨ s.st = .capProp ∨ s.st = .capRead) ∧ ((s.sub = 1 ∧ c = true ∧ v = false ∧
     e = .clk true) ∨ (s.sub = 2 ∧ c = false ∧ v = false ∧ e = .clk false)))
   ∨ ((s.st = .flushSi ∨ s.st = .capSiStart ∨ s.st = .capSiStop) ∧ ((s.sub = 0 ∧ c = false ∧ v = true ∧
     e = .si true) ∨ (s.sub = 1 ∧ c = true ∧ v = true ∧ e = .clk true) ∨ (s.sub = 2 ∧ c = false ∧ v = true ∧
       e = .clk false) ∨ (s.sub = 3 ∧ c = false ∧ v = false ∧ e = .si false)))))
  ∨ (s.slot = .trig ∧ s.st = .capProp ∧ s.sub = 0) ∨ (s.slot = .sample ∧ s.st = .capRead ∧ s.sub = 0)
  ∨ (∃ l, s.slot = .write l ∧ s.st = .capRead ∧ ((l = .aHigh ∧ s.sub = 3) ∨ (l = .aLow ∧ s.sub = 4) ∨ (l = .bHigh ∧
    s.sub = 5) ∨ (l = .bLow ∧ s.sub = 6)))
  ∨ (s.slot = .wait ∧ s.st = .capExpo ∧ s.sub = 0) := by
  unfold State.slot
  generalize s.sub = k
  cases s.st <;> rcases k with _ | _ | _ | _ | _ | _ | _ | k <;> simp [slotAt, bootSlot, clkPulseSlot, siPulseSlot,
    capPropSlot, capReadSlot]

/-- In IDLE every line rests low (R51). -/
theorem idle_outputs {s : State} (h : s.st = .idle) : s.outputs = s.restPorts := by simp [State.outputs,
  State.slot, h, slotAt]

/-- The recorded events are those of the cycle. -/
theorem cycle_events {p d s t} (h : cycle p d s = .next t) (hr : s.stimulus.rst = false) : t.events = s.cycleEvents p d := by
  obtain ⟨hc, ⟨hr', _⟩ | ⟨_, u, hu, rfl⟩⟩ := cycle_next h
  · simp_all
  · rfl

/-- The sequencer writes no host register, no error flag and no latched configuration. -/
theorem sequence_host (s : State) (p d) : (s.sequence p d).hostView = s.hostView ∧ (s.sequence p d).expL = s.expL ∧
  (s.sequence p d).baseL = s.baseL ∧ (s.sequence p d).tenL = s.tenL ∧ (s.sequence p d).tidxL = s.tidxL := by
  have ha : ∀ s : State, s.advance.hostView = s.hostView ∧ s.advance.expL = s.expL ∧ s.advance.baseL = s.baseL ∧
    s.advance.tenL = s.tenL ∧ s.advance.tidxL = s.tidxL := by
    intro s
    unfold State.advance
    cases s.st <;> simp only [State.advanceBoot, State.advanceFlush, State.advanceSi, State.advanceProp,
      State.advanceRead, State.beginProp, State.beginExposure, State.finish] <;> (repeat' split) <;>
        simp [State.hostView]
  unfold State.sequence
  cases s.slot with
  | none => simp
  | phase c v e => simp only [State.phaseCycle]; split; exact ha s; simp [State.hostView]
  | trig => exact ha s
  | sample => simp only [State.sampleCycle]; split; simpa [State.hostView] using ha (s.takeSample p d); simp
  | write l => simpa [State.hostView, State.writeCycle] using ha (s.storeLane l)
  | wait => simp only [State.waitCycle]; split; split; simpa [State.hostView] using ha s.countUs; simp [State.hostView]; simp [State.hostView]

/-- `advance` writes no memory. -/
theorem advance_mem (s : State) : s.advance.mem = s.mem := by
    unfold State.advance
    cases s.st <;> simp only [State.advanceBoot, State.advanceFlush, State.advanceSi, State.advanceProp,
      State.advanceRead, State.beginProp, State.beginExposure, State.finish] <;> (repeat' split) <;> simp

/-- Only a write slot writes the frame memory, one byte of its lane. -/
theorem sequence_mem (u : State) (p d) : (u.sequence p d).mem = match u.slot with | .write l => Memory.write u.mem (u.laneAddr l) (u.laneData l) | _ => u.mem := by
    unfold State.sequence
    cases hx : u.slot with
    | none => simp
    | phase c v e => simp only [State.phaseCycle]; split; exact advance_mem u; simp
    | trig => exact advance_mem u
    | sample => simp only [State.sampleCycle]; split; simpa using advance_mem (u.takeSample p d); simp
    | write l => simpa [State.writeCycle] using advance_mem (u.storeLane l)
    | wait => simp only [State.waitCycle]; split; split; simpa using advance_mem u.countUs; simp; simp

end Sys2Proof.Machine
end

