-- ==== Sys2Proof/Laws/Runs.lean ====
section
/-! SUPPORT. Runs of undisturbed cycles of a running sequence, up to what the sequencer does not go by: `SameCourse` is the
equivalence such runs keep, `Reaches` says where `n` cycles lead and what they show, and its three laws (no cycle, one cycle,
one run after another) build every longer run. -/

namespace Sys2Proof.Machine

/-- Two states that go the same course: the same sequencer's view, host's registers and frame memory. -/
def SameCourse (s t : State) : Prop := s.seqView = t.seqView ∧ s.hostView = t.hostView ∧ s.mem = t.mem

theorem SameCourse.refl (s : State) : SameCourse s s := ⟨rfl, rfl, rfl⟩

theorem SameCourse.trans {s t u : State} (h : SameCourse s t) (h' : SameCourse t u) : SameCourse s u :=
  ⟨h.1.trans h'.1, h.2.1.trans h'.2.1, h.2.2.trans h'.2.2⟩

/-- One cycle of the running slot keeps the equivalence. -/
theorem SameCourse.sequence {s t : State} (p : Params) (d : Draws) (h : SameCourse s t) :
    SameCourse (s.sequence p d) (t.sequence p d) := by
  refine ⟨sequence_view p d h.1, ?_, ?_⟩
  · rw [(sequence_host s p d).1, (sequence_host t p d).1, h.2.1]
  · obtain ⟨h1, _, h3, h4, _, h6, h7, _, h9, _⟩ := seqView_eq h.1
    have hs : s.slot = t.slot := by simp [State.slot, h1, h4]
    rw [sequence_mem, sequence_mem, hs, h.2.2]
    simp [State.laneAddr, State.laneData, h9, h3, h6, h7]

/-- An undisturbed cycle of a running sequence is one cycle of its slot. -/
theorem quiet_busy_cycle {p : Params} {d : Draws} {s : State} (hp : s.pending = []) (hi : s.st ≠ .idle) :
    ∃ t, cycle p d s = .next t ∧ SameCourse t (s.sequence p d) ∧ t.pending = [] ∧ t.tick = s.tick + 1 ∧
      t.events = s.cycleEvents p d := by
  refine ⟨_, cycle_quiet hp, ?_, by simp [hp], rfl, rfl⟩
  rw [State.endCycle_busy _ _ _ _ _ hi]
  have : SameCourse (s.drive 0#32) s := ⟨rfl, rfl, rfl⟩
  exact SameCourse.trans ⟨rfl, rfl, rfl⟩ (this.sequence p d)

/-- From any state that goes the course of `s`, with nothing applied, at cycle `k`: `n` cycles lead to the course of `u` and
show `ev`, with BUSY = 1 in each of them. -/
def Reaches (p : Params) (d : Nat → Draws) (n k : Nat) (s u : State) (ev : List Event) : Prop :=
  ∀ s', SameCourse s' s → s'.pending = [] → s'.tick = k →
    (∃ t, runCycles p d n s' = some (t, ev) ∧ SameCourse t u ∧ t.pending = [] ∧ t.tick = k + n) ∧
    ∀ j, j < n → ∃ t e, runCycles p d j s' = some (t, e) ∧ t.busy = true

variable {p : Params} {d : Nat → Draws} {n m k : Nat} {s t u : State} {e₁ e₂ : List Event}

theorem Reaches.zero : Reaches p d 0 k s s [] :=
  fun s' h hp hk => ⟨⟨s', rfl, h, hp, by simpa using hk⟩, fun _ hj => absurd hj (Nat.not_lt_zero _)⟩

/-- One run after another. -/
theorem Reaches.comp (h₁ : Reaches p d n k s t e₁) (h₂ : Reaches p d m (k + n) t u e₂) :
    Reaches p d (n + m) k s u (e₁ ++ e₂) := by
  intro s' hs hp hk
  obtain ⟨⟨t', ht, hq, hp', hk'⟩, hb⟩ := h₁ s' hs hp hk
  obtain ⟨⟨u', hu, hq', hp'', hk''⟩, hb'⟩ := h₂ t' hq hp' hk'
  refine ⟨⟨u', ?_, hq', hp'', by omega⟩, ?_⟩
  · rw [runCycles_add _ _ _ ht, hu]
    rfl
  · intro j hj
    by_cases hjn : j < n
    · exact hb j hjn
    · obtain ⟨x, ev, hx, hxb⟩ := hb' (j - n) (by omega)
      refine ⟨x, e₁ ++ ev, ?_, hxb⟩
      rw [show j = n + (j - n) by omega, runCycles_add _ _ _ ht, hx]
      rfl

/-- One cycle of a running sequence. -/
theorem Reaches.one (hi : s.st ≠ .idle) : Reaches p d 1 k s (s.sequence p (d k)) (s.cycleEvents p (d k)) := by
  intro s' hs hp hk
  have hi' : s'.st ≠ .idle := by rw [(seqView_eq hs.1).1]; exact hi
  obtain ⟨t, ht, hq, hp', hk', hev⟩ := quiet_busy_cycle (p := p) (d := d s'.tick) hp hi'
  refine ⟨⟨t, ?_, ?_, hp', by omega⟩, ?_⟩
  · rw [runCycles_succ _ _ _ ht, hev, hk, events_view _ _ hs.1]
    simp
  · rw [hk] at hq
    exact hq.trans (hs.sequence p (d k))
  · intro j hj
    obtain rfl : j = 0 := by omega
    exact ⟨s', [], rfl, by simp [State.busy, hi']⟩

/-- Where a run leads matters only up to its course. -/
theorem Reaches.congr {u' : State} (h : Reaches p d n k s u e₁) (hu : SameCourse u u') : Reaches p d n k s u' e₁ := by
  intro s' a b c
  obtain ⟨⟨t, h1, h2, h3⟩, h4⟩ := h s' a b c
  exact ⟨⟨t, h1, h2.trans hu, h3⟩, h4⟩

end Sys2Proof.Machine
end

