-- ==== Sys2Proof/Tests/Slice0.lean ====
section
/-! SUPPORT. The model's own tests: the well-formedness smoke test, one written-out word for every constructor, vectors of
spec/95_test_vectors.md, and a witness for the hypotheses of every statement that has some. Expected values come from the
spec. -/

namespace Sys2Proof.Tests

open Sys2Proof Sys2Proof.Machine

/-! ### Helpers -/

/-- The parameters of the vectors: T_HALF = 1, CLK_PER_US = 1, ADC_W = 16. -/
def unitParams : Params where
  tHalf := 1
  clkPerUs := 1
  adcW := 16
  regBase := 0x4000
  tHalf_pos := by decide
  clkPerUs_pos := by decide
  adcW_pos := by decide
  adcW_le := by decide

/-- T_HALF = 2, CLK_PER_US = 2, ADC_W = 10. -/
def slowParams : Params where
  tHalf := 2
  clkPerUs := 2
  adcW := 10
  regBase := 0x4000
  tHalf_pos := by decide
  clkPerUs_pos := by decide
  adcW_pos := by decide
  adcW_le := by decide

/-- A cycle in which the sampler answers with `(a, b)`. -/
def answer (a b : Half) : Draws where
  smpValid := true
  smpA := a
  smpB := b
  raceOld := false

/-- A cycle in which the sampler is silent. -/
def silent : Draws where
  smpValid := false
  smpA := 0#16
  smpB := 0#16
  raceOld := true

/-- IDLE after the boot flush: STATUS 0x002, PULSE_COUNT 2165. -/
def idleState : State := { State.reset with st := .idle, flushed := true, pulseCount := 2165#32 }

/-- A running sequence at slot `sub` of `st`, with `FLUSHED = 1`. -/
def inSlot (st : Fsm) (sub : Nat) : State := { idleState with st := st, sub := sub }

/-- CAP_READ, iteration `i`, slot `sub`, base 0x1000, with the pair of V24 in the sample registers. -/
def reading (i sub : Nat) : State :=
  { inSlot .capRead sub with iter := i, baseL := 0x1000#32, smpA := 5#16, smpB := 995#16 }

/-- `s` with one input waiting. -/
def given (s : State) (r : Bool) (a : Access) (f : FrameAccess) : State := { s with pending := [⟨r, a, f⟩] }

/-- The state an outcome goes on with. -/
def ran : Host.Outcome State Fault Refusal → Option State
  | .next t => some t
  | .fault _ => none
  | .refused _ => none

/-- The fault an outcome stops with. -/
def faultOf : Host.Outcome State Fault Refusal → Option Fault
  | .next _ => none
  | .fault r => some r
  | .refused _ => none

/-- The refusal an outcome stops with. -/
def refusalOf : Host.Outcome State Fault Refusal → Option Refusal
  | .next _ => none
  | .fault _ => none
  | .refused r => some r

/-- What `bus_rdata` shows after an operation. -/
def shown (i : Instr) (s : State) : Option Word := (ran (exec i s)).map fun t => t.busRdata

/-- STATUS after an operation. -/
def statusAfter (i : Instr) (s : State) : Option Word := (ran (exec i s)).map fun t => t.statusWord

/-! ### Well-formedness -/

theorem test_wf_refuses_capture_as_reserved : WellFormed (.cmdRsv 2#8 0#24) = false := by decide
theorem test_wf_refuses_nop_as_reserved : WellFormed (.cmdRsv 0#8 0#24) = false := by decide
theorem test_wf_accepts_op_4 : WellFormed (.cmdRsv 4#8 0#24) = true := by decide
theorem test_wf_accepts_rsv_1 : WellFormed (.cmdRsv 2#8 1#24) = true := by decide

/-! ### Decoding, one written-out word for each constructor (R112, R114, R119) -/

theorem test_decode_nop : decode 0x800000000#36 = .nop := by decide
theorem test_decode_init : decode 0x800000001#36 = .init := by decide
theorem test_decode_capture : decode 0x800000002#36 = .capture := by decide
theorem test_decode_clrerr : decode 0x800000003#36 = .clrerr := by decide
theorem test_decode_cmdRsv : decode 0x8ABCDEF12#36 = .cmdRsv 0x12#8 0xABCDEF#24 := by decide
theorem test_decode_rdCmd : decode 0x000000000#36 = .rdCmd := by decide
theorem test_decode_rdStatus : decode 0x1FFFFFFFF#36 = .rdStatus := by decide
theorem test_decode_rdExposure : decode 0x200000000#36 = .rdExposure := by decide
theorem test_decode_rdFrameLen : decode 0x300000000#36 = .rdFrameLen := by decide
theorem test_decode_rdBufBase : decode 0x400000000#36 = .rdBufBase := by decide
theorem test_decode_rdTrigCtrl : decode 0x500000000#36 = .rdTrigCtrl := by decide
theorem test_decode_rdPulseCount : decode 0x600000000#36 = .rdPulseCount := by decide
theorem test_decode_rdFrameCount : decode 0x700000000#36 = .rdFrameCount := by decide
theorem test_decode_wrStatus : decode 0x9FFFFFFFF#36 = .wrStatus 0xFFFFFFFF#32 := by decide
theorem test_decode_wrExposure : decode 0xA0000000A#36 = .wrExposure 10#32 := by decide
theorem test_decode_wrFrameLen : decode 0xB000009FF#36 = .wrFrameLen 2559#32 := by decide
theorem test_decode_wrBufBase : decode 0xCFFFFF600#36 = .wrBufBase 0xFFFFF600#32 := by decide
theorem test_decode_wrTrigCtrl : decode 0xD00120001#36 = .wrTrigCtrl 0x00120001#32 := by decide
theorem test_decode_wrPulseCount : decode 0xE00000000#36 = .wrPulseCount 0#32 := by decide
theorem test_decode_wrFrameCount : decode 0xF00000007#36 = .wrFrameCount 7#32 := by decide
theorem test_table_word_too_wide : decodeTableWord 40 0x1000000000 = none := by decide

/-! ### Instructions (V52 to V54, V70 to V85, V90 to V105) -/

theorem test_nop_busy_V82 : statusAfter .nop (inSlot .capRead 0) = some 0x903#32 := by decide
theorem test_init_V52 :
    (ran (exec .init idleState)).map (fun t => (t.statusWord, t.pulseCount)) = some (0x201#32, 2166#32) := by decide
theorem test_init_boot_V54 : statusAfter .init State.reset = some 0x105#32 := by decide
theorem test_capture_V70 : statusAfter .capture idleState = some 0x503#32 := by decide
theorem test_capture_both_V75 :
    statusAfter .capture { idleState with frameLen := 2559#32, bufBase := 0xFFFFFFFF#32 } = some 0x01A#32 := by decide
theorem test_clrerr_V83 : statusAfter .clrerr { idleState with cmdErr := true, lenErr := true } = some 0x002#32 := by
  decide
theorem test_cmdRsv_V76 : statusAfter (.cmdRsv 2#8 1#24) idleState = some 0x006#32 := by decide
theorem test_rdCmd_V90 : shown .rdCmd idleState = some 0#32 := by decide
theorem test_rdStatus_V91 : shown .rdStatus State.reset = some 0x00000101#32 := by decide
theorem test_rdStatus_reading : shown .rdStatus (inSlot .capRead 0) = some 0x00000903#32 := by decide
theorem test_rdExposure_V93 : shown .rdExposure State.reset = some 0x000001F4#32 := by decide
theorem test_rdFrameLen_V95 : shown .rdFrameLen State.reset = some 0x00000A00#32 := by decide
theorem test_rdBufBase_V97 : shown .rdBufBase State.reset = some 0#32 := by decide
theorem test_rdTrigCtrl_V99 : shown .rdTrigCtrl State.reset = some 0x00120000#32 := by decide
theorem test_rdPulseCount : shown .rdPulseCount idleState = some 2165#32 := by decide
theorem test_rdFrameCount_V104 : shown .rdFrameCount { idleState with frameCount := 1#32 } = some 1#32 := by decide
theorem test_wrStatus_V92 :
    statusAfter (.wrStatus 0xFFFFFFFF#32) { idleState with cmdErr := true } = some 0x006#32 := by decide
theorem test_wrExposure_V94 :
    (ran (exec (.wrExposure 0xFFFFFFFF#32) idleState)).map (·.exposureUs) = some 0xFFFFFFFF#32 := by decide
theorem test_wrFrameLen_V96 : (ran (exec (.wrFrameLen 2559#32) idleState)).map (·.frameLen) = some 2559#32 := by decide
theorem test_wrBufBase_V98 :
    (ran (exec (.wrBufBase 0xFFFFFFFF#32) idleState)).map (·.bufBase) = some 0xFFFFFFFF#32 := by decide
theorem test_wrTrigCtrl_V100 :
    (ran (exec (.wrTrigCtrl 0x0000FFFF#32) idleState)).map (·.trigCtrlWord) = some 1#32 := by decide
theorem test_wrTrigCtrl_V45 :
    (ran (exec (.wrTrigCtrl 0xFFFFFFFF#32) idleState)).map (·.trigCtrlWord) = some 0xFFFF0001#32 := by decide
theorem test_wrPulseCount_V103 :
    (ran (exec (.wrPulseCount 0#32) idleState)).map (·.pulseCount) = some 2165#32 := by decide
theorem test_wrFrameCount_V105 :
    (ran (exec (.wrFrameCount 7#32) { idleState with frameCount := 1#32 })).map (·.frameCount) = some 1#32 := by decide

/-! ### The cycle (V13, V16 to V18, V24, V26, V110 to V112) -/

theorem test_pack_V16 : packSample (rawSample 16 0xFFFF#16) = 0xFFFC#16 := by decide
theorem test_pack_V17 : packSample (rawSample 16 0x4000#16) = 0x0000#16 := by decide
theorem test_pack_V13 : packSample (rawSample 12 0xFABC#16) = 0x2AF0#16 := by decide
theorem test_pack_V18 : packSample (rawSample 1 0x0003#16) = 0x0004#16 := by decide
theorem test_write4_V24 :
    write4Trace 0x1000#32 5 5#16 995#16 =
      [.wr 0x100A#32 0x00#8, .wr 0x100B#32 0x14#8, .wr 0x150A#32 0x0F#8, .wr 0x150B#32 0x8C#8] := by decide
theorem test_write4_V26 :
    write4Trace 0xFFFFF600#32 639 639#16 361#16 =
      [.wr 0xFFFFFAFE#32 0x09#8, .wr 0xFFFFFAFF#32 0xFC#8, .wr 0xFFFFFFFE#32 0x05#8, .wr 0xFFFFFFFF#32 0xA4#8] := by
  decide
theorem test_write_slot_port :
    (reading 5 4).outputs = ⟨false, false, false, false, true, 0x100B#32, 0x14#8, true⟩ := by decide
theorem test_reset_V111 :
    (ran (cycle unitParams silent (given idleState true (.transact 0x800000002#36) .quiet))).map
      (fun t => (t.statusWord, t.exposureUs)) = some (0x101#32, 500#32) := by decide
theorem test_reset_levels_V112 :
    (ran (cycle unitParams silent (given (reading 5 4) true .quiet .quiet))).map (·.ports) =
      some ⟨false, false, false, false, false, 0#32, 0#8, true⟩ := by decide
theorem test_sample_ADC_W_10 :
    (ran (cycle slowParams (answer 0xFFFF#16 0x03E8#16) (inSlot .capRead 0))).map (fun t => (t.smpA, t.smpB)) =
      some (0x03FF#16, 0x03E8#16) := by decide

/-! ### Witnesses: concrete states and operands that meet the hypotheses of each statement, every clause of it -/

/-- The invariant holds of an IDLE state at any parameters. -/
theorem inv_idle (p : Params) : State.Inv p idleState :=
  ⟨⟨rfl, rfl, rfl⟩, p.tHalf_pos, fun _ => rfl, p.clkPerUs_pos, (fun h => nomatch h), fun _ => ⟨rfl, rfl⟩,
    (fun h => nomatch h), rfl, rfl⟩

theorem witness_DecodeEncodeRoundTrip : WellFormed (.cmdRsv 4#8 0#24) = true ∧ WellFormed (.wrExposure 0xFFFFFFFF#32) = true := by
  decide
theorem witness_EveryTransactionReencodes :
    (0x800000000#36 : Transaction).getLsbD 35 = true ∧ (0x7FFFFFFFF#36 : Transaction).getLsbD 35 = false := by decide
theorem witness_OperandsAreTheDataBits : ((1#24 : BitVec 24) ≠ 0#24) ∧ 3 < (4#8 : BitVec 8).toNat := by decide
theorem witness_ReservedCommandSetsCmdErr : 3 < (4#32 : Word).toNat := by decide
theorem witness_IdleInitStartsTheFlush : idleState.st = .idle := rfl
theorem witness_IdleCaptureLatchesAndStarts :
    let s : State := { idleState with bufBase := 0xFFFFF600#32 }
    s.st = .idle ∧ s.frameLen = 2560#32 ∧ s.bufBase.toNat ≤ 0xFFFFF600 := by decide
theorem witness_HostOperationFrame : (inSlot .capRead 0).st ≠ .idle := by decide

theorem witness_StepRunsTheDecodedOperation :
    let m : Stimulus := ⟨false, .transact 0x800000002#36, .write 0x1A00#32 7#8⟩
    let s : State := { reading 5 4 with pending := [m, Stimulus.none] }
    s.pending = m :: [Stimulus.none] ∧ s.conflicts m = false := by decide
theorem witness_StepRunsTheDecodedOperation_table :
    decodeTableWord 40 0x800000002 = some .capture ∧ decodeTableWord 36 0xFFFFFFFFF = some (.wrFrameCount 0xFFFFFFFF#32) := by
  decide
theorem witness_QuietIdleCycleChangesNothing : idleState.st = .idle ∧ idleState.pending = [] := ⟨rfl, rfl⟩
theorem witness_ResetValues :
    let s := given (reading 300 0) true .quiet .quiet
    s.stimulus.rst = true ∧ (ran (cycle unitParams silent s)).isSome := by decide
theorem witness_ResetOverridesTheCycle :
    let m : Stimulus := ⟨true, .transact 0x800000002#36, .write 0x1A00#32 7#8⟩
    let s : State := { reading 5 4 with pending := [m] }
    s.pending = m :: [] ∧ s.conflicts m = false := by decide

/-- A write at either end of the frame breaks the ownership; one byte past either end it does not. -/
theorem witness_StopsOnlyOnABrokenDuty_fault :
    faultOf (cycle unitParams silent (given (reading 5 4) false .quiet (.write 0x1000#32 7#8))) = some .frameConflict ∧
    faultOf (cycle unitParams silent (given (reading 5 4) true .quiet (.write 0x19FF#32 7#8))) = some .frameConflict ∧
    (ran (cycle unitParams silent (given (reading 5 4) false .quiet (.write 0x0FFF#32 7#8)))).isSome ∧
    (ran (cycle unitParams silent (given (reading 5 4) false .quiet (.write 0x1A00#32 7#8)))).isSome := by decide

/-- A halfword access is refused, but not in a reset cycle, and the conflict comes first. -/
theorem witness_StopsOnlyOnABrokenDuty_refusal :
    refusalOf (cycle unitParams silent (given idleState false (.mapped true 0x4008 2 7#32) .quiet)) = some .subwordAccess ∧
    (ran (cycle unitParams silent (given idleState true (.mapped true 0x4008 2 7#32) .quiet))).isSome ∧
    faultOf (cycle unitParams silent (given (reading 5 4) false (.mapped true 0x4008 2 7#32) (.write 0x1000#32 7#8))) =
      some .frameConflict := by decide

theorem witness_RegisterWindowAccesses :
    busUse unitParams (.mapped true (unitParams.regBase + 4 * (7#3 : BitVec 3).toNat) 4 7#32) =
        .transaction 0xF00000007#36 ∧
    busUse unitParams (.mapped false (unitParams.regBase + 31) 1 0#32) = .subword ∧
    busUse unitParams (.mapped false (unitParams.regBase + 32) 1 0#32) = .idle ∧
    busUse unitParams (.mapped false (unitParams.regBase - 4) 4 0#32) = .idle := by decide

/-- Reads of a byte written before, at either draw; of the byte being written in this very cycle (V24), at either draw; and of
one beside the frame. -/
theorem witness_FrameReadRace :
    let s : State := { given (reading 5 4) false .quiet (.read 0x1000#32) with
      mem := [(0x1000, 9#8)], memBefore := [(0x1000, 8#8), (0x100B, 3#8)] }
    let w : State := { s with pending := [⟨false, .quiet, .read 0x100B#32⟩] }
    let o : State := { s with pending := [⟨false, .quiet, .read 0x1A00#32⟩] }
    s.owns 0x1000#32 = true ∧ s.owns 0x19FF#32 = true ∧ o.owns 0x1A00#32 = false ∧ s.st.capturing = true ∧
    idleState.st.capturing = false ∧
    (ran (cycle unitParams silent s)).map (·.frameRdata) = some 8#8 ∧
    (ran (cycle unitParams (answer 0#16 0#16) s)).map (·.frameRdata) = some 9#8 ∧
    w.owns 0x100B#32 = true ∧ w.stimulus.rst = false ∧ w.slot = .write .aLow ∧
    0x100B#32 = w.baseL + BitVec.ofNat 32 (frameOffset .aLow w.iter) ∧
    (ran (cycle unitParams silent w)).map (·.frameRdata) = some 3#8 ∧
    (ran (cycle unitParams (answer 0#16 0#16) w)).map (·.frameRdata) = some 0x14#8 ∧
    (ran (cycle unitParams silent o)).isSome ∧ (ran (cycle unitParams silent idleState)).isSome := by decide

theorem witness_CycleChangesOnlyTheWrittenByte :
    let s : State := given (reading 5 4) false .quiet (.write 0x1A00#32 7#8)
    let t := ran (cycle unitParams silent s)
    s.stimulus.rst = false ∧ s.slot = .write .aLow ∧
    t.bind (fun t => Memory.read t.mem 0x1A00#32) = some 7#8 ∧
    t.bind (fun t => Memory.read t.mem 0x100B#32) = some 0x14#8 ∧
    t.bind (fun t => Memory.read t.mem 0x100A#32) = none := by decide

theorem witness_StepKeepsTheInvariant : ∃ t, State.Inv Config.params idleState ∧ step idleState = .next t :=
  ⟨_, inv_idle _, rfl⟩

theorem witness_OutputsOnlyInTheirStates :
    (reading 5 4).outputs.wrEn = true ∧ (inSlot .capRead 0).outputs.smpReq = true ∧
    (inSlot .capProp 0).outputs.trigOut = true ∧ idleState.outputs.wrEn = false ∧ State.reset.st = .boot := by decide

/-- For the statements whose only hypotheses are that the cycle is no reset and goes on; CLOCK rises in it. -/
theorem witness_cycles_that_go_on :
    let s := inSlot .flushA 2
    s.stimulus.rst = false ∧ s.outputs.clkOut = false ∧
    (ran (cycle unitParams silent s)).map (fun t => (t.outputs.clkOut, t.pulseCount)) = some (true, 2166#32) := by decide

theorem witness_EndsOfSequencesAreCounted :
    (reading 639 6).stimulus.rst = false ∧
    (ran (cycle unitParams silent (reading 639 6))).map (fun t => (t.st, t.frameCount)) = some (.idle, 1#32) ∧
    (ran (cycle unitParams silent { inSlot .flushB 2 with pidx := 1081 })).map (·.st) = some .idle ∧
    (ran (cycle unitParams silent (given idleState false (.transact 0x800000001#36) .quiet))).map (·.st) =
      some .flushA := by decide

/-- Each clause of the statement about the host's registers: another operation, and each way a flag rises. -/
theorem witness_HostRegistersChangeOnlyByTheirWrites :
    let q := given { idleState with cmdErr := true, lenErr := true, addrErr := true } false (.transact 0x800000000#36) .quiet
    let c := given { idleState with frameLen := 2559#32, bufBase := 0xFFFFF601#32 } false (.transact 0x800000002#36) .quiet
    let r := given idleState false (.transact 0x8FFFFFFFF#36) .quiet
    let b := given (inSlot .capRead 0) false (.transact 0x800000001#36) .quiet
    q.hostOp unitParams = some .nop ∧ (ran (cycle unitParams silent q)).isSome ∧
    (ran (cycle unitParams silent c)).map (fun t => (t.lenErr, t.addrErr)) = some (true, true) ∧
    (ran (cycle unitParams silent r)).map (·.cmdErr) = some true ∧
    (ran (cycle unitParams silent b)).map (·.cmdErr) = some true := by decide

theorem witness_ConfigurationIsLatchedAtTheStart :
    let c := given { idleState with bufBase := 0x2000#32 } false (.transact 0x800000002#36) .quiet
    c.stimulus.rst = false ∧ c.st = .idle ∧
    (ran (cycle unitParams silent c)).map (fun t => (t.st, t.baseL)) = some (.capSiStart, 0x2000#32) ∧
    (ran (cycle unitParams silent (reading 5 4))).map (·.st) = some .capRead := by decide

theorem witness_RunningSequenceIgnoresTheHost :
    let s := reading 5 4
    let t := given { reading 5 4 with bufBase := 7#32, cmdErr := true, mem := [(3, 4#8)] } false (.transact 0xC00005000#36) .quiet
    s.seqView = t.seqView ∧ s.st ≠ .idle ∧ s.stimulus.rst = false ∧ t.stimulus.rst = false ∧
    (ran (cycle unitParams silent s)).isSome ∧ (ran (cycle unitParams silent t)).isSome := by decide

theorem witness_PhaseLastsTHalfCycles :
    (inSlot .flushA 1).slot = .phase true false (.clk true) ∧ (inSlot .flushA 1).tcnt = 0 ∧ (inSlot .flushA 1).pending = [] ∧
    0 < slowParams.tHalf ∧ 1 < slowParams.tHalf := by decide

theorem witness_SiPulseShape :
    (∀ st ∈ [Fsm.flushSi, .capSiStart, .capSiStop], (inSlot st 0).st = st ∧ (inSlot st 0).sub = 0 ∧ (inSlot st 0).tcnt = 0 ∧
      (inSlot st 0).pending = []) ∧ 7 < 4 * slowParams.tHalf := by decide

theorem witness_ClockPulseShape :
    (∀ st ∈ [Fsm.flushA, .flushB, .capProp, .capRead], (inSlot st 1).st = st ∧ (inSlot st 1).sub = 1 ∧ (inSlot st 1).tcnt = 0 ∧
      (inSlot st 1).pending = []) ∧ 3 < 2 * slowParams.tHalf := by decide

theorem witness_SampleHandshake :
    let s := inSlot .capRead 0
    s.stimulus.rst = false ∧ s.st = .capRead ∧ s.sub = 0 ∧ silent.smpValid = false ∧ (answer 1#16 2#16).smpValid = true ∧
    (ran (cycle unitParams silent s)).isSome ∧
    (ran (cycle unitParams (answer 1#16 2#16) s)).map (fun t => (t.smpA, t.smpB)) = some (1#16, 2#16) ∧
    ¬ ((reading 5 4).st = .capRead ∧ (reading 5 4).sub = 0) ∧
    (ran (cycle unitParams (answer 1#16 2#16) (reading 5 4))).isSome ∧ (ran (cycle unitParams silent (reading 5 4))).isSome := by
  decide

/-- Undisturbed, with a command and another agent's read applied, and with a reset. -/
theorem witness_SilentSamplerHangsTheBlock :
    let s := inSlot .capRead 0
    let u := given s false (.transact 0x800000002#36) (.read 0#32)
    let r := given s true .quiet .quiet
    s.st = .capRead ∧ s.sub = 0 ∧ s.pending = [] ∧ (∀ m ∈ u.pending, m.rst = false) ∧
    (runCycles unitParams (fun _ => silent) 2 u).isSome ∧ r.stimulus.rst = true ∧
    (ran (cycle unitParams silent r)).isSome ∧ ∀ n : Nat, ((fun _ => silent : Nat → Draws) n).smpValid = false :=
  ⟨rfl, rfl, rfl, by decide, by decide, rfl, by decide, fun _ => rfl⟩

theorem witness_PackingLaw : (0x3FFF#16 : Half).toNat < 2 ^ 14 := by decide

theorem witness_WriteFourStoresTheIteration :
    (∀ i ∈ [0, 638, 639], (reading i 3).st = .capRead ∧ (reading i 3).sub = 3 ∧ (reading i 3).pending = [] ∧
      (reading i 3).iter < 640) ∧ (reading 638 3).iter < 639 ∧ (reading 639 3).iter = 639 := by decide

theorem witness_FrameAddressesNeverWrap :
    let s : State := { reading 639 6 with baseL := 0xFFFFF600#32 }
    (0xFFFFF600#32 : Word).toNat ≤ 0xFFFFF600 ∧ 2559 < 2560 ∧ s.baseL.toNat ≤ 0xFFFFF600 ∧ s.iter < 640 ∧
    (ran (exec .capture { idleState with bufBase := 0xFFFFF600#32 })).map (fun t => (t.st, t.baseL)) =
      some (.capSiStart, 0xFFFFF600#32) := by decide

theorem witness_EveryFrameOffsetIsWrittenOnce : 2559 < 2560 ∧ frameOffset .bLow 639 = 2559 := by decide

theorem witness_FrameHoldsThePackedSamples :
    (0xFFFFF600#32 : Word).toNat ≤ 0xFFFFF600 ∧ (List.replicate 640 ((1#16 : Half), (2#16 : Half))).length = 640 ∧
    (List.replicate 640 ((1#16 : Half), (2#16 : Half)))[639]? = some (1#16, 2#16) ∧
    (0xFFFFF5FF#32 : Addr).toNat < (0xFFFFF600#32 : Word).toNat := by
  refine ⟨by decide, List.length_replicate, ?_, by decide⟩
  rw [List.getElem?_replicate]
  rfl

theorem witness_ExposureWaitDuration :
    let s : State := { inSlot .capExpo 0 with usLeft := 1#32 }
    s.st = .capExpo ∧ s.sub = 0 ∧ s.presc = 0 ∧ s.usLeft ≠ 0#32 ∧ s.pending = [] ∧ 1 < s.usLeft.toNat * slowParams.clkPerUs := by
  decide

theorem witness_ExposureBeginsOrIsSkipped :
    let s : State := { inSlot .capProp 2 with pidx := 1079 }
    let u : State := { s with expL := 1#32 }
    s.stimulus.rst = false ∧ s.st = .capProp ∧ s.sub = 2 ∧ s.pidx = 1079 ∧ s.tcnt + 1 = unitParams.tHalf ∧
    s.expL = 0#32 ∧ (ran (cycle unitParams silent s)).isSome ∧
    u.tcnt + 1 = unitParams.tHalf ∧ u.expL ≠ 0#32 ∧ (ran (cycle unitParams silent u)).isSome := by decide

/-- The three clauses: the strobe's own cycle, the end of a propagation pulse and the end of the start marker. -/
theorem witness_TriggerStrobeFiresBeforeItsPulse :
    let a : State := { inSlot .capProp 0 with pidx := 1079, tenL := true, tidxL := 1079#16 }
    let b : State := { inSlot .capProp 2 with pidx := 1078, tenL := true, tidxL := 1079#16 }
    let c : State := { inSlot .capSiStart 3 with tenL := true, tidxL := 0#16 }
    (State.Inv unitParams a ∧ State.Inv unitParams b ∧ State.Inv unitParams c) ∧
    (a.outputs.trigOut = true ∧ (ran (cycle unitParams silent a)).isSome) ∧
    (b.st = .capProp ∧ b.sub = 2 ∧ b.tcnt + 1 = unitParams.tHalf ∧ b.pidx < 1079 ∧
      (ran (cycle unitParams silent b)).map (·.sub) = some 0) ∧
    (c.st = .capSiStart ∧ c.sub = 3 ∧ c.tcnt + 1 = unitParams.tHalf ∧
      (ran (cycle unitParams silent c)).map (·.sub) = some 0) := by
  refine ⟨⟨?_, ?_, ?_⟩, by decide, by decide, by decide⟩
  · exact ⟨⟨by decide, by decide, rfl, fun _ => ⟨rfl, rfl⟩⟩, by decide, by decide, by decide, by decide, by decide, by decide, by decide, by decide⟩
  · exact ⟨⟨by decide, by decide, rfl, fun h => absurd h (by decide)⟩, by decide, by decide, by decide, by decide, by decide, by decide, by decide, by decide⟩
  · exact ⟨⟨by decide, rfl, rfl⟩, by decide, by decide, by decide, by decide, by decide, by decide, by decide, by decide⟩

theorem witness_BootFlush :
    State.reset.seqView = State.reset.seqView ∧ State.reset.pending = [] ∧ 4333 < 4334 * unitParams.tHalf := by decide

theorem witness_InitRunsTheFlush :
    (given idleState false (.transact 0x800000001#36) .quiet).st = .idle ∧
    (given idleState false (.transact 0x800000001#36) .quiet).onlyTransaction 0x800000001#36 ∧
    1 ≤ 4332 ∧ 4332 < 1 + 4332 * unitParams.tHalf := ⟨rfl, rfl, by decide, by decide⟩

/-- A sampler that always answers at once has latency 0 at every request. -/
theorem witness_CaptureRunsToDone :
    let s : State := given { idleState with bufBase := 0xFFFFF600#32, trigEn := true, trigIndex := 1079#16 } false
      (.transact 0x800000002#36) .quiet
    s.st = .idle ∧ s.frameLen = 2560#32 ∧ s.bufBase.toNat ≤ 0xFFFFF600 ∧ s.onlyTransaction 0x800000002#36 ∧
    AnswersAfter unitParams (fun _ => answer 5#16 995#16)
      (s.tick + 1 + requestOffset unitParams s.exposureUs s.trigEn s.trigIndex) (fun _ => 0) :=
  ⟨rfl, rfl, by decide, rfl, fun _ _ => ⟨fun j hj => absurd hj (Nat.not_lt_zero j), rfl⟩⟩

theorem witness_CaptureTraceCounts : (List.replicate 640 ((1#16 : Half), (2#16 : Half))).length = 640 := List.length_replicate

/-- The two captures may differ in their parameters, their states and their latencies. -/
theorem witness_CaptureIsDetermined :
    let d : Nat → Draws := fun _ => answer 5#16 995#16
    let s : State := given { idleState with bufBase := 0x1000#32 } false (.transact 0x800000002#36) .quiet
    let s' : State := { s with tick := 9, mem := [(0x1000, 7#8)], cmdErr := true }
    s.st = .idle ∧ s'.st = .idle ∧ s.frameLen = 2560#32 ∧ s'.frameLen = 2560#32 ∧ s.bufBase.toNat ≤ 0xFFFFF600 ∧
    s.onlyTransaction 0x800000002#36 ∧ s'.onlyTransaction 0x800000002#36 ∧ s.exposureUs = s'.exposureUs ∧
    s.bufBase = s'.bufBase ∧ s.trigEn = s'.trigEn ∧ s.trigIndex = s'.trigIndex ∧
    AnswersAfter unitParams d (s.tick + 1 + requestOffset unitParams s.exposureUs s.trigEn s.trigIndex) (fun _ => 0) ∧
    AnswersAfter slowParams d (s'.tick + 1 + requestOffset slowParams s'.exposureUs s'.trigEn s'.trigIndex) (fun _ => 0) ∧
    answersOf unitParams d (s.tick + 1 + requestOffset unitParams s.exposureUs s.trigEn s.trigIndex) (fun _ => 0) =
      answersOf slowParams d (s'.tick + 1 + requestOffset slowParams s'.exposureUs s'.trigEn s'.trigIndex) (fun _ => 0) := by
  refine ⟨rfl, rfl, rfl, rfl, by decide, rfl, rfl, rfl, rfl, rfl, rfl, ?_, ?_, ?_⟩
  · exact fun _ _ => ⟨fun j hj => absurd hj (Nat.not_lt_zero j), rfl⟩
  · exact fun _ _ => ⟨fun j hj => absurd hj (Nat.not_lt_zero j), rfl⟩
  · exact List.map_congr_left fun _ _ => Prod.ext
      (by show rawSample 16 5#16 = rawSample 10 5#16; decide) (by show rawSample 16 995#16 = rawSample 10 995#16; decide)

theorem witness_FairSamplerBringsEverySequenceToDone :
    State.Inv unitParams (inSlot .capRead 0) ∧ (inSlot .capRead 0).st ≠ .idle ∧ (inSlot .capRead 0).pending = [] ∧
    SamplerFair unitParams (fun _ => answer 5#16 995#16) (inSlot .capRead 0) :=
  ⟨⟨⟨by decide, rfl, by decide⟩, by decide, by decide, by decide, by decide, by decide, by decide, by decide, by decide⟩, by decide, rfl,
    fun _ _ _ _ _ => ⟨0, rfl⟩⟩

end Sys2Proof.Tests
end

/-! PROOFS. A phase PH(c, s) (spec/40_primitives.md R141): the cycles it holds, the event it shows and the edge that ends
it. `State.atCount` names the states a phase passes through, `Reaches.phase_held` says how the run gets to each of them, and
`Reaches.phase` is the law of a whole phase that longer runs are built from. -/

namespace Sys2Proof.Machine

/-! ### The states of one phase -/

/-- `s` with `k` cycles of its phase spent. -/
def State.atCount (s : State) (k : Nat) : State := { s with tcnt := k }

section
variable (s : State) (k : Nat)

@[simp] theorem State.atCount_st : (s.atCount k).st = s.st := rfl
@[simp] theorem State.atCount_tcnt : (s.atCount k).tcnt = k := rfl
@[simp] theorem State.atCount_slot : (s.atCount k).slot = s.slot := rfl
@[simp] theorem State.atCount_endEvents : (s.atCount k).endEvents = s.endEvents := rfl
@[simp] theorem State.atCount_countPhase : (s.atCount k).countPhase = s.atCount (k + 1) := rfl

theorem State.atCount_of_tcnt {s : State} {k : Nat} (h : s.tcnt = k) : s.atCount k = s := by
  subst h; rfl

/-- What follows a slot does not depend on the cycles counted in it: every "next" entry begins its slot at count 0. -/
theorem State.advance_atCount (hi : s.st ≠ .idle) : (s.atCount k).advance = s.advance := by
  unfold State.advance
  rw [State.atCount_st]
  cases hst : s.st with
  | idle => exact absurd hst hi
  | boot | flushA | flushSi | flushB | capSiStart | capProp | capExpo | capSiStop | capRead => rfl

end

/-! ### One cycle of a phase -/

section
variable {s : State} {c v : Bool} {e : Event}

theorem State.st_ne_idle_of_phase (h : s.slot = .phase c v e) : s.st ≠ .idle := by
  intro hi
  simp [State.slot, hi, slotAt] at h

theorem State.sequence_phase (h : s.slot = .phase c v e) (p : Params) (d : Draws) :
    s.sequence p d = if s.tcnt + 1 = p.tHalf then s.advance else s.countPhase := by
  simp [State.sequence, h, State.phaseCycle]

theorem State.cycleEvents_phase (h : s.slot = .phase c v e) (p : Params) (d : Draws) :
    s.cycleEvents p d = (if s.tcnt = 0 then [e] else []) ++ (if s.tcnt + 1 = p.tHalf then s.endEvents else []) := by
  simp [State.cycleEvents, h]

theorem State.outputs_phase (h : s.slot = .phase c v e) :
    s.outputs = { s.restPorts with clkOut := c, siOut := v } := by
  simp [State.outputs, h]

/-! ### The run of a phase -/

variable {p : Params} {d : Nat → Draws}

/-- Before its last cycle is spent a phase only counts: `k` cycles lead to the count `k`, and the first of them shows the
phase's event. -/
theorem Reaches.phase_held (h : s.slot = .phase c v e) (h0 : s.tcnt = 0) (n : Nat) {k : Nat} (hk : k < p.tHalf) :
    Reaches p d k n s (s.atCount k) (if k = 0 then [] else [e]) := by
  induction k with
  | zero => rw [State.atCount_of_tcnt h0]; exact Reaches.zero
  | succ k ih =>
    have hslot : (s.atCount k).slot = .phase c v e := h
    have hcount : (s.atCount k).sequence p (d (n + k)) = s.atCount (k + 1) := by
      rw [State.sequence_phase hslot, State.atCount_tcnt, if_neg hk.ne, State.atCount_countPhase]
    have hshow : (s.atCount k).cycleEvents p (d (n + k)) = if k = 0 then [e] else [] := by
      rw [State.cycleEvents_phase hslot, State.atCount_tcnt, if_neg hk.ne, List.append_nil]
    have hrun := (ih (by omega)).comp (Reaches.one (State.st_ne_idle_of_phase hslot))
    rw [hcount, hshow] at hrun
    have hev : (if k = 0 then [] else [e]) ++ (if k = 0 then [e] else []) = [e] := by split <;> rfl
    rwa [hev] at hrun

/-- A whole phase: T_HALF cycles lead to the next slot and show the phase's event, then those of the edge that ends it. -/
theorem Reaches.phase (h : s.slot = .phase c v e) (h0 : s.tcnt = 0) (n : Nat) :
    Reaches p d p.tHalf n s s.advance (e :: s.endEvents) := by
  obtain ⟨m, hm⟩ : ∃ m, p.tHalf = m + 1 := Nat.exists_eq_add_of_le' p.tHalf_pos
  have hslot : (s.atCount m).slot = .phase c v e := h
  have hlast : (s.atCount m).sequence p (d (n + m)) = s.advance := by
    rw [State.sequence_phase hslot, State.atCount_tcnt, if_pos hm.symm,
      State.advance_atCount _ _ (State.st_ne_idle_of_phase h)]
  have hshow : (s.atCount m).cycleEvents p (d (n + m)) = (if m = 0 then [e] else []) ++ s.endEvents := by
    rw [State.cycleEvents_phase hslot, State.atCount_tcnt, if_pos hm.symm, State.atCount_endEvents]
  have hrun := (Reaches.phase_held (p := p) (d := d) h h0 n (by omega)).comp (Reaches.one (State.st_ne_idle_of_phase hslot))
  rw [hlast, hshow, ← hm] at hrun
  have hev : (if m = 0 then [] else [e]) ++ ((if m = 0 then [e] else []) ++ s.endEvents) = e :: s.endEvents := by
    split <;> rfl
  rwa [hev] at hrun

end

/-- Settles O34: `Reaches.phase_held` gives each cycle the phase holds, and the outputs are those of its slot;
`Reaches.phase` gives the end. -/
theorem phaseLastsTHalfCycles : Obligations.PhaseLastsTHalfCycles := by
  intro p d s c v e hslot h0 hp
  refine ⟨fun k hk => ?_, ?_⟩
  · obtain ⟨⟨t, hrun, hcourse, -⟩, -⟩ := Reaches.phase_held (d := d) hslot h0 s.tick hk s (.refl s) hp rfl
    have hout : t.outputs = { s.restPorts with clkOut := c, siOut := v } :=
      (outputs_view hcourse.1).trans (State.outputs_phase (s := s.atCount k) hslot)
    obtain ⟨hst, -, -, hsub, htcnt, -⟩ := seqView_eq hcourse.1
    have htslot : t.slot = .phase c v e := by rw [State.slot, hst, hsub]; exact hslot
    exact ⟨t, _, hrun, htslot, htcnt, by simp [hout, State.restPorts]⟩
  · obtain ⟨⟨t, hrun, hcourse, -⟩, -⟩ := Reaches.phase hslot h0 s.tick s (.refl s) hp rfl
    exact ⟨t, hrun, hcourse.1⟩

end Sys2Proof.Machine

/-! PROOFS. The inversion lemmas of the sequencer and of the cycle: `NextEntry` lists the "next" entries of the slot tables
(spec/41_flush.md R173 to R175, spec/42_capture.md R192 to R197, spec/70_reset_and_hazards.md R321), `SlotCycle` what one
cycle of the running slot can be. Claims about single cycles go by these cases and do not unfold the sequencer. -/

namespace Sys2Proof.Machine

/-! ### The "next" entries -/

/-- Where a propagation pulse begins (R193). -/
theorem State.beginProp_eq (s : State) (n : Nat) :
    s.beginProp n = s.enter .capProp (if s.tenL = true ∧ s.tidxL.toNat = n then 0 else 1) n 0 := by
  unfold State.beginProp
  split <;> rfl

/-- The "next" entries of the slot tables, one constructor for each. -/
inductive NextEntry (s : State) : State → Prop where
  | bootClock (hst : s.st = .boot) (hsub : s.sub = 0) : NextEntry s (s.enter .boot 1 0 0)
  | bootEnd (hst : s.st = .boot) (hsub : s.sub ≠ 0) : NextEntry s (s.enter .flushA 1 0 0)
  | flushLow (hst : s.st = .flushA ∨ s.st = .flushB) (hsub : s.sub = 1) : NextEntry s (s.enter s.st 2 s.pidx 0)
  | flushPulse (hst : s.st = .flushA ∨ s.st = .flushB) (hsub : s.sub ≠ 1) (hp : s.pidx + 1 < Config.flushPulses) :
      NextEntry s (s.enter s.st 1 (s.pidx + 1) 0)
  | flushAEnd (hst : s.st = .flushA) (hsub : s.sub ≠ 1) (hp : ¬ s.pidx + 1 < Config.flushPulses) :
      NextEntry s (s.enter .flushSi 0 0 0)
  | flushBEnd (hst : s.st = .flushB) (hsub : s.sub ≠ 1) (hp : ¬ s.pidx + 1 < Config.flushPulses) :
      NextEntry s ((s.setFlushed true).enter .idle 0 0 0)
  | siPhase (hst : s.st = .flushSi ∨ s.st = .capSiStart ∨ s.st = .capSiStop) (hsub : s.sub < 3) :
      NextEntry s (s.enter s.st (s.sub + 1) 0 0)
  | flushSiEnd (hst : s.st = .flushSi) (hsub : ¬ s.sub < 3) : NextEntry s (s.enter .flushB 1 0 0)
  | siStartEnd (hst : s.st = .capSiStart) (hsub : ¬ s.sub < 3) : NextEntry s (s.beginProp 0)
  | siStopEnd (hst : s.st = .capSiStop) (hsub : ¬ s.sub < 3) : NextEntry s (s.enter .capRead 0 0 0)
  | propPhase (hst : s.st = .capProp) (hsub : s.sub < 2) : NextEntry s (s.enter .capProp (s.sub + 1) s.pidx 0)
  | propPulse (hst : s.st = .capProp) (hsub : ¬ s.sub < 2) (hp : s.pidx + 1 < Config.propPulses) :
      NextEntry s (s.beginProp (s.pidx + 1))
  | propEndSkip (hst : s.st = .capProp) (hsub : ¬ s.sub < 2) (hp : ¬ s.pidx + 1 < Config.propPulses)
      (he : s.expL = 0#32) : NextEntry s (s.enter .capSiStop 0 0 0)
  | propEndWait (hst : s.st = .capProp) (hsub : ¬ s.sub < 2) (hp : ¬ s.pidx + 1 < Config.propPulses)
      (he : s.expL ≠ 0#32) : NextEntry s ((s.loadTimer).enter .capExpo 0 0 0)
  | expoEnd (hst : s.st = .capExpo) : NextEntry s (s.enter .capSiStop 0 0 0)
  | readSlot (hst : s.st = .capRead) (hsub : s.sub < 6) : NextEntry s (s.enter .capRead (s.sub + 1) 0 s.iter)
  | readIter (hst : s.st = .capRead) (hsub : ¬ s.sub < 6) (hn : s.iter + 1 < Config.readIters) :
      NextEntry s (s.enter .capRead 0 0 (s.iter + 1))
  | readEnd (hst : s.st = .capRead) (hsub : ¬ s.sub < 6) (hn : ¬ s.iter + 1 < Config.readIters) :
      NextEntry s ((s.countFrame).enter .idle 0 0 0)

section
variable {s t : State}

theorem nextEntry_advanceFlush {after : State} (hst : s.st = .flushA ∨ s.st = .flushB)
    (hend : s.sub ≠ 1 → ¬ s.pidx + 1 < Config.flushPulses → NextEntry s after) : NextEntry s (s.advanceFlush after) := by
  unfold State.advanceFlush
  split
  · next hsub => exact .flushLow hst hsub
  · next hsub =>
    split
    · next hp => exact .flushPulse hst hsub hp
    · next hp => exact hend hsub hp

theorem nextEntry_advanceSi {after : State} (hst : s.st = .flushSi ∨ s.st = .capSiStart ∨ s.st = .capSiStop)
    (hend : ¬ s.sub < 3 → NextEntry s after) : NextEntry s (s.advanceSi after) := by
  unfold State.advanceSi
  split
  · next hsub => exact .siPhase hst hsub
  · next hsub => exact hend hsub

theorem nextEntry_advanceProp (hst : s.st = .capProp) : NextEntry s s.advanceProp := by
  unfold State.advanceProp
  split
  · next hsub => exact .propPhase hst hsub
  · next hsub =>
    split
    · next hp => exact .propPulse hst hsub hp
    · next hp =>
      unfold State.beginExposure
      split
      · next he => exact .propEndSkip hst hsub hp he
      · next he => exact .propEndWait hst hsub hp he

theorem nextEntry_advanceRead (hst : s.st = .capRead) : NextEntry s s.advanceRead := by
  unfold State.advanceRead
  split
  · next hsub => exact .readSlot hst hsub
  · next hsub =>
    split
    · next hn => exact .readIter hst hsub hn
    · next hn => exact .readEnd hst hsub hn

/-- Everything the clock edge that ends a slot can lead to. -/
theorem nextEntry_advance (hi : s.st ≠ .idle) : NextEntry s s.advance := by
  unfold State.advance
  cases hst : s.st with
  | idle => exact absurd hst hi
  | boot =>
    show NextEntry s s.advanceBoot
    unfold State.advanceBoot
    split
    · next hsub => exact .bootClock hst hsub
    · next hsub => exact .bootEnd hst hsub
  | flushA => exact nextEntry_advanceFlush (.inl hst) (.flushAEnd hst)
  | flushSi => exact nextEntry_advanceSi (.inl hst) (.flushSiEnd hst)
  | flushB => exact nextEntry_advanceFlush (.inr hst) (.flushBEnd hst)
  | capSiStart => exact nextEntry_advanceSi (.inr (.inl hst)) (.siStartEnd hst)
  | capProp => exact nextEntry_advanceProp hst
  | capExpo => exact .expoEnd hst
  | capSiStop => exact nextEntry_advanceSi (.inr (.inr hst)) (.siStopEnd hst)
  | capRead => exact nextEntry_advanceRead hst

end

/-! ### One cycle of the running slot -/

/-- What one cycle of the running slot can be, one constructor for each: the slot goes on, or its end leads to the "next"
entry (R321). -/
inductive SlotCycle (p : Params) (d : Draws) (s : State) : State → Prop where
  | noSlot (h : s.slot = .none) : SlotCycle p d s s
  | phaseHeld {c v : Bool} {e : Event} (h : s.slot = .phase c v e) (hk : s.tcnt + 1 ≠ p.tHalf) :
      SlotCycle p d s s.countPhase
  | phaseEnds {c v : Bool} {e : Event} (h : s.slot = .phase c v e) (hk : s.tcnt + 1 = p.tHalf) :
      SlotCycle p d s s.advance
  | strobe (h : s.slot = .trig) : SlotCycle p d s s.advance
  | unanswered (h : s.slot = .sample) (hv : d.smpValid = false) : SlotCycle p d s s
  | answered (h : s.slot = .sample) (hv : d.smpValid = true) : SlotCycle p d s (s.takeSample p d).advance
  | stored (lane : Lane) (h : s.slot = .write lane) : SlotCycle p d s (s.storeLane lane).advance
  | prescCounts (h : s.slot = .wait) (hc : s.presc + 1 ≠ p.clkPerUs) : SlotCycle p d s s.countPresc
  | usCounts (h : s.slot = .wait) (hc : s.presc + 1 = p.clkPerUs) (hu : s.usLeft ≠ 1#32) : SlotCycle p d s s.countUs
  | waited (h : s.slot = .wait) (hc : s.presc + 1 = p.clkPerUs) (hu : s.usLeft = 1#32) :
      SlotCycle p d s (s.countUs).advance

theorem slotCycle_sequence (p : Params) (d : Draws) (s : State) : SlotCycle p d s (s.sequence p d) := by
  unfold State.sequence
  cases h : s.slot with
  | none => exact .noSlot h
  | phase c v e =>
    show SlotCycle p d s (s.phaseCycle p)
    unfold State.phaseCycle
    split
    · next hk => exact .phaseEnds h hk
    · next hk => exact .phaseHeld h hk
  | trig => exact .strobe h
  | sample =>
    show SlotCycle p d s (s.sampleCycle p d)
    unfold State.sampleCycle
    split
    · next hv => exact .answered h hv
    · next hv => exact .unanswered h (by simpa using hv)
  | write lane => exact .stored lane h
  | wait =>
    show SlotCycle p d s (s.waitCycle p)
    unfold State.waitCycle
    split
    · next hc =>
      split
      · next hu => exact .waited h hc hu
      · next hu => exact .usCounts h hc hu
    · next hc => exact .prescCounts h hc

/-- In IDLE no slot runs. -/
theorem State.slot_idle {s : State} (hi : s.st = .idle) : s.slot = .none := by
  simp [State.slot, hi, slotAt]

theorem State.st_ne_idle_of_slot {s : State} (h : s.slot ≠ .none) : s.st ≠ .idle := fun hi => h (State.slot_idle hi)

/-- The slots that are no phase stand in one state each (R193 to R196). -/
theorem State.slot_state (s : State) :
    (s.slot = .trig → s.st = .capProp ∧ s.sub = 0) ∧ (s.slot = .sample → s.st = .capRead ∧ s.sub = 0) ∧
      (∀ lane, s.slot = .write lane → s.st = .capRead) ∧ (s.slot = .wait → s.st = .capExpo) := by
  rcases slot_cases s with h | ⟨c, v, e, h, -⟩ | ⟨h, hpos⟩ | ⟨h, hpos⟩ | ⟨lane, h, hst, -⟩ | ⟨h, hst, -⟩
  · simp [h]
  · simp [h]
  · simp [h, hpos]
  · simp [h, hpos]
  · simp [h, hst]
  · simp [h, hst]

theorem State.slot_trig {s : State} (h : s.slot = .trig) : s.st = .capProp ∧ s.sub = 0 := s.slot_state.1 h

theorem State.slot_sample {s : State} (h : s.slot = .sample) : s.st = .capRead ∧ s.sub = 0 := s.slot_state.2.1 h

theorem State.slot_write {s : State} {lane : Lane} (h : s.slot = .write lane) : s.st = .capRead :=
  s.slot_state.2.2.1 lane h

theorem State.slot_wait {s : State} (h : s.slot = .wait) : s.st = .capExpo := s.slot_state.2.2.2 h

/-- The slot and what ends it do not go by the sample pair, the memory or the timer. -/
@[simp] theorem State.takeSample_slot (s : State) (p : Params) (d : Draws) : (s.takeSample p d).slot = s.slot := rfl
@[simp] theorem State.storeLane_slot (s : State) (lane : Lane) : (s.storeLane lane).slot = s.slot := rfl
@[simp] theorem State.countUs_slot (s : State) : s.countUs.slot = s.slot := rfl
@[simp] theorem State.countPresc_slot (s : State) : s.countPresc.slot = s.slot := rfl
@[simp] theorem State.countPhase_slot (s : State) : s.countPhase.slot = s.slot := rfl
@[simp] theorem State.enter_slot (s : State) (st : Fsm) (sub pidx iter : Nat) :
    (s.enter st sub pidx iter).slot = slotAt st sub := rfl

/-! ### The cycle around the slot -/

section
variable {p : Params} {d : Draws} {s t : State}

/-- The recorded output levels are those of the state the cycle began in (R32). -/
theorem cycle_ports (h : cycle p d s = .next t) (hr : s.stimulus.rst = false) : t.ports = s.outputs := by
  obtain ⟨-, ⟨hr', -⟩ | ⟨-, u, -, rfl⟩⟩ := cycle_next h
  · exact absurd hr (by simp [hr'])
  · rfl

/-- A cycle with `rst = 1` that goes on is a reset cycle (R300). -/
theorem cycle_reset (h : cycle p d s = .next t) (hr : s.stimulus.rst = true) : t = s.resetCycle d s.stimulus := by
  obtain ⟨-, ⟨-, ht⟩ | ⟨hr', -⟩⟩ := cycle_next h
  · exact ht
  · exact absurd hr (by simp [hr'])

/-- The host's part of a cycle stores nothing (R88). -/
theorem hostCycle_mem {u : State} {m : Stimulus} (h : s.hostCycle p m = .next u) :
    u.mem = s.mem ∧ u.memBefore = s.memBefore := by
  obtain ⟨-, rfl⟩ | ⟨x, -, hx⟩ := hostCycle_next h
  · exact ⟨rfl, rfl⟩
  · obtain ⟨v, w, hw, rfl⟩ := exec_effect hx
    cases hw <;> exact ⟨rfl, rfl⟩

/-- The frame memory after the block's part of a cycle: a write slot stores its byte (R149), and a reset stores none
(R300). -/
def State.blockMem (s : State) : Memory :=
  match s.stimulus.rst, s.slot with
  | false, .write lane => Memory.write s.mem (s.laneAddr lane) (s.laneData lane)
  | _, _ => s.mem

theorem State.blockMem_write {lane : Lane} (hr : s.stimulus.rst = false) (hw : s.slot = .write lane) :
    s.blockMem = Memory.write s.mem (s.laneAddr lane) (s.laneData lane) := by
  simp [State.blockMem, hr, hw]

theorem State.blockMem_rest (h : ∀ lane, s.stimulus.rst = false → s.slot ≠ .write lane) : s.blockMem = s.mem := by
  unfold State.blockMem
  split
  · next lane hr hw => exact absurd hw (h lane hr)
  · rfl

theorem State.blockMem_wf (h : s.mem.wf = true) : s.blockMem.wf = true := by
  unfold State.blockMem
  split
  · exact Memory.write_wf _ _ _ h
  · exact h

/-- The frame memory after a cycle: the block's part, then the other agent's access. -/
theorem cycle_mem (h : cycle p d s = .next t) : t.mem = s.stimulus.frame.apply s.blockMem := by
  obtain ⟨-, ⟨hr, rfl⟩ | ⟨hr, u, hu, rfl⟩⟩ := cycle_next h
  · rw [State.blockMem_rest (fun _ hr' => absurd hr (by simp [hr']))]
    rfl
  · by_cases hi : s.st = .idle
    · rw [State.endCycle_idle _ _ _ _ _ hi, State.settle_mem, State.record_mem, (hostCycle_mem hu).1,
        State.blockMem_rest (by simp [State.slot_idle hi])]
    · obtain ⟨hst, -, hiter, hsub, -, ha, hb, -, hbase, -⟩ := seqView_eq (hostCycle_view hu hi)
      rw [State.endCycle_busy _ _ _ _ _ hi, State.settle_mem, State.record_mem, sequence_mem, (hostCycle_mem hu).1]
      have hslot : u.slot = s.slot := by simp [State.slot, hst, hsub]
      cases hw : s.slot with
      | write lane =>
        rw [State.blockMem_write hr hw]
        simp [hslot, hw, State.laneAddr, State.laneData, hiter, ha, hb, hbase]
      | none | phase | trig | sample | wait =>
        rw [State.blockMem_rest (by simp [hw])]
        simp [hslot, hw]

/-- The memory a racing reader may see after a cycle (R94). -/
theorem cycle_memBefore (h : cycle p d s = .next t) :
    t.memBefore = if s.st.capturing then s.memBefore else t.mem := by
  obtain ⟨-, ⟨-, rfl⟩ | ⟨-, u, -, rfl⟩⟩ := cycle_next h <;> rfl

end

end Sys2Proof.Machine

/-! PROOFS. The invariant (spec/10_state.md R55): the reset state has it, and every cycle keeps it. `State.EdgeOk` is what
stands of it at the clock edge that ends a slot, between the last cycle of one slot and the first of the next. -/

namespace Sys2Proof.Machine

section
variable {p : Params} {d : Draws} {s t : State}

/-! ### The invariant and the sequencer's view -/

/-- The invariant speaks of the sequencer's view and of the two memories only. -/
theorem State.Inv.congr (h : State.Inv p s) (hv : t.seqView = s.seqView) (hm : t.mem.wf = true)
    (hb : t.memBefore.wf = true) : State.Inv p t := by
  obtain ⟨hst, hpidx, hiter, hsub, htcnt, -, -, hexp, hbase, hten, htidx, hus, hpresc, -⟩ := seqView_eq hv
  have hslot : t.slot = s.slot := by simp [State.slot, hst, hsub]
  refine ⟨?_, ?_, ?_, ?_, ?_, ?_, ?_, hm, hb⟩
  · simpa [State.posOk, hst, hpidx, hiter, hsub, hten, htidx] using h.pos
  · simpa [htcnt] using h.tcnt_lt
  · simpa [hslot, htcnt] using h.tcnt_zero
  · simpa [hpresc] using h.presc_lt
  · simpa [hst, hus, hexp] using h.timer_runs
  · simpa [hst, hus, hpresc] using h.timer_rests
  · simpa [hst, hbase] using h.frame_fits

/-- The reset state has the invariant, it is at BOOT slot 0 with nothing counted (R52). -/
theorem State.inv_reset (p : Params) : State.Inv p State.reset where
  pos := ⟨by decide, rfl, rfl⟩
  tcnt_lt := p.tHalf_pos
  tcnt_zero _ := rfl
  presc_lt := p.clkPerUs_pos
  timer_runs h := nomatch h
  timer_rests _ := ⟨rfl, rfl⟩
  frame_fits h := nomatch h
  mem_wf := rfl
  memBefore_wf := rfl

/-! ### The edge between two slots -/

/-- What stands of the invariant at the clock edge that ends a slot: the timer has run out or never ran, and nothing is
said of `tcnt`, which the next slot clears. -/
structure State.EdgeOk (s : State) : Prop where
  pos : s.posOk
  timer_out : s.usLeft = 0#32 ∧ s.presc = 0
  frame_fits : s.st.capturing = true → s.baseL ≤ Config.maxBufBase
  mem_wf : s.mem.wf = true
  memBefore_wf : s.memBefore.wf = true

theorem State.Inv.edgeOk (h : State.Inv p s) (hx : s.st ≠ .capExpo) : s.EdgeOk :=
  ⟨h.pos, h.timer_rests hx, h.frame_fits, h.mem_wf, h.memBefore_wf⟩

/-- Every "next" entry begins at a legal position. -/
theorem NextEntry.posOk (h : NextEntry s t) (hs : s.posOk) : t.posOk := by
  cases h with
  | flushLow hst | flushPulse hst =>
    rcases hst with hst | hst <;> simp_all [State.posOk]
  | siPhase hst hsub =>
    have hle : s.sub + 1 ≤ 3 := hsub
    rcases hst with hst | hst | hst <;> simpa [State.posOk, hst] using hle
  | siStartEnd | propPulse =>
    rw [State.beginProp_eq]
    simp_all [State.posOk]
    split <;> simp
  | bootClock | bootEnd | flushAEnd | flushBEnd | flushSiEnd | siStopEnd | propPhase | propEndSkip | propEndWait | expoEnd
  | readSlot | readIter | readEnd => simp_all [State.posOk]

/-- Every "next" entry begins its slot at count 0. -/
theorem NextEntry.tcnt (h : NextEntry s t) : t.tcnt = 0 := by
  cases h <;> simp [State.beginProp_eq]

/-- A capture runs only out of a running capture, with the same latched base. -/
theorem NextEntry.capturing (h : NextEntry s t) : t.baseL = s.baseL ∧ (t.st.capturing = true → s.st.capturing = true) := by
  cases h <;> simp_all [State.beginProp_eq, Fsm.capturing]

theorem NextEntry.memories (h : NextEntry s t) : t.mem = s.mem ∧ t.memBefore = s.memBefore := by
  cases h <;> simp [State.beginProp_eq]

/-- The timer is loaded with EXP_L where the exposure begins, which is skipped when EXP_L is 0; elsewhere no "next" entry
touches it (R150). -/
theorem NextEntry.timer (h : NextEntry s t) :
    (t.st = .capExpo ∧ t.usLeft = s.expL ∧ t.expL = s.expL ∧ s.expL ≠ 0#32 ∧ t.presc = 0) ∨
      (t.st ≠ .capExpo ∧ t.usLeft = s.usLeft ∧ t.presc = s.presc) := by
  cases h with
  | flushLow hst | flushPulse hst => rcases hst with hst | hst <;> simp [hst]
  | siPhase hst => rcases hst with hst | hst | hst <;> simp [hst]
  | propEndWait _ _ _ he => exact .inl ⟨rfl, rfl, rfl, he, rfl⟩
  | siStartEnd | propPulse => simp [State.beginProp_eq]
  | bootClock | bootEnd | flushAEnd | flushBEnd | flushSiEnd | siStopEnd | propPhase | propEndSkip | expoEnd | readSlot
  | readIter | readEnd => simp

/-- From the edge that ends a slot the invariant stands again. -/
theorem State.EdgeOk.advance (h : s.EdgeOk) (hi : s.st ≠ .idle) : State.Inv p s.advance := by
  have hn := nextEntry_advance hi
  obtain ⟨hbase, hcap⟩ := hn.capturing
  obtain ⟨hmem, hbefore⟩ := hn.memories
  have htimer := hn.timer
  refine ⟨hn.posOk h.pos, hn.tcnt ▸ p.tHalf_pos, fun _ => hn.tcnt, ?_, ?_, ?_, fun ht => hbase ▸ h.frame_fits (hcap ht),
    hmem ▸ h.mem_wf, hbefore ▸ h.memBefore_wf⟩
  · obtain ⟨-, -, -, -, hp⟩ | ⟨-, -, hp⟩ := htimer
    · exact hp ▸ p.clkPerUs_pos
    · rw [hp, h.timer_out.2]; exact p.clkPerUs_pos
  · intro hx
    obtain ⟨-, hus, hexp, hne, -⟩ | ⟨hx', -⟩ := htimer
    · rw [hus, hexp]; exact ⟨hne, BitVec.le_refl _⟩
    · exact absurd hx hx'
  · intro hx
    obtain ⟨hx', -⟩ | ⟨-, hus, hp⟩ := htimer
    · exact absurd hx' hx
    · rw [hus, hp]; exact h.timer_out

/-! ### One cycle of the running slot -/

/-- CAP_EXPO has no slot but the wait. -/
theorem State.st_ne_capExpo (h : s.slot ≠ .none) (hw : s.slot ≠ .wait) : s.st ≠ .capExpo := by
  intro hx
  unfold State.slot at h hw
  rw [hx] at h hw
  cases hs : s.sub <;> simp [slotAt, hs] at h hw

/-- At the end of any slot but the wait, the invariant is all there. -/
theorem State.Inv.edgeOk_of_slot (h : State.Inv p s) (hn : s.slot ≠ .none) (hw : s.slot ≠ .wait) : s.EdgeOk :=
  h.edgeOk (State.st_ne_capExpo hn hw)

/-- A microsecond less stays below what the timer was loaded with. -/
theorem usLeft_sub_one_le {u e : Word} (h0 : u ≠ 0#32) (he : u ≤ e) : u - 1#32 ≤ e := by
  bv_omega

/-- One cycle of the running slot keeps the invariant. -/
theorem SlotCycle.inv (hc : SlotCycle p d s t) (h : State.Inv p s) : State.Inv p t := by
  cases hc with
  | noSlot | unanswered => exact h
  | phaseHeld hslot hk =>
    have hlt := h.tcnt_lt
    exact { h with
      tcnt_lt := by simp; omega
      tcnt_zero := by simp [hslot, Slot.isPhase] }
  | phaseEnds hslot | strobe hslot =>
    have hn : s.slot ≠ .none := by simp [hslot]
    exact (h.edgeOk_of_slot hn (by simp [hslot])).advance (State.st_ne_idle_of_slot hn)
  | answered hslot =>
    have hn : s.slot ≠ .none := by simp [hslot]
    have he : (s.takeSample p d).EdgeOk := { h.edgeOk_of_slot hn (by simp [hslot]) with }
    exact he.advance (State.st_ne_idle_of_slot hn)
  | stored lane hslot =>
    have hn : s.slot ≠ .none := by simp [hslot]
    have he : (s.storeLane lane).EdgeOk :=
      { h.edgeOk_of_slot hn (by simp [hslot]) with mem_wf := Memory.write_wf _ _ _ h.mem_wf }
    exact he.advance (State.st_ne_idle_of_slot hn)
  | prescCounts hslot hk =>
    have hx := State.slot_wait hslot
    have hlt := h.presc_lt
    exact { h with
      presc_lt := by simp; omega
      timer_rests := fun hne => absurd hx hne }
  | usCounts hslot hk hu =>
    have hx := State.slot_wait hslot
    obtain ⟨h0, hle⟩ := h.timer_runs hx
    exact { h with
      presc_lt := p.clkPerUs_pos
      timer_runs := fun _ => ⟨by simp; bv_omega, usLeft_sub_one_le h0 hle⟩
      timer_rests := fun hne => absurd hx hne }
  | waited hslot hk hu =>
    have hn : s.slot ≠ .none := by simp [hslot]
    have he : s.countUs.EdgeOk := ⟨h.pos, by simp [hu], h.frame_fits, h.mem_wf, h.memBefore_wf⟩
    exact he.advance (State.st_ne_idle_of_slot hn)

/-! ### The host's part and the whole cycle -/

/-- A host operation keeps the invariant: those that begin a sequence are accepted in IDLE only, and a capture only with a
base that does not let its frame wrap (R83, R190). -/
theorem HostEffect.inv (he : HostEffect s t) (h : State.Inv p s) : State.Inv p t := by
  cases he with
  | startFlush hi =>
    exact { h with
      pos := by simp [State.posOk]
      tcnt_lt := p.tHalf_pos
      tcnt_zero := fun _ => rfl
      timer_runs := fun hx => nomatch hx
      timer_rests := fun _ => h.timer_rests (by simp [hi])
      frame_fits := fun hx => nomatch hx }
  | startCapture hi _ ha =>
    exact { h with
      pos := by simp [State.posOk]
      tcnt_lt := p.tHalf_pos
      tcnt_zero := fun _ => rfl
      timer_runs := fun hx => nomatch hx
      timer_rests := fun _ => h.timer_rests (by simp [hi])
      frame_fits := fun _ => by simpa [State.addrBad] using ha }
  | none | cmdErr | argErrs | clearErrs | exposure | frameLen | bufBase | trig => exact h.congr rfl h.mem_wf h.memBefore_wf

/-- The two memories stay canonical through every cycle. -/
theorem State.Inv.cycle_memories (h : State.Inv p s) (hc : cycle p d s = .next t) :
    t.mem.wf = true ∧ t.memBefore.wf = true := by
  have hm : t.mem.wf = true := by
    rw [cycle_mem hc]
    exact FrameAccess.apply_wf _ _ (State.blockMem_wf h.mem_wf)
  refine ⟨hm, ?_⟩
  rw [cycle_memBefore hc]
  split
  · exact h.memBefore_wf
  · exact hm

/-- Every cycle keeps the invariant, for any parameters and draws: a reset begins from the reset state, a cycle in IDLE is
the host's operation, and any other is a cycle of the running slot. -/
theorem State.Inv.cycle (h : State.Inv p s) (hc : cycle p d s = .next t) : State.Inv p t := by
  obtain ⟨hm, hb⟩ := h.cycle_memories hc
  cases hr : s.stimulus.rst with
  | true => exact (State.inv_reset p).congr (by rw [cycle_reset hc hr]; rfl) hm hb
  | false =>
    by_cases hi : s.st = .idle
    · obtain ⟨v, u, hu, rfl⟩ := idle_cycle hc hr hi
      exact (hu.inv h).congr rfl hm hb
    · exact ((slotCycle_sequence p d s).inv h).congr (busy_cycle_view hc hr hi) hm hb

end

/-- Settles O26: `step` is a cycle at this implementation's parameters and draws, and every cycle keeps the invariant. -/
theorem stepKeepsTheInvariant : Obligations.StepKeepsTheInvariant :=
  fun s _ h hstep => h.cycle (step_eq s ▸ hstep)

/-- Settles O25. -/
theorem resetHasTheInvariant : Obligations.ResetHasTheInvariant := State.inv_reset

end Sys2Proof.Machine

/-! PROOFS. A running sequence and the host: neither touches what the other goes by. The sequence goes by its own view
(spec/60_exceptions.md R265); the host's registers and flags go by the host's operations (R261, R267); and the latched
configuration is the one thing that passes from the host to the sequence, at the start of a capture (spec/10_state.md R38,
spec/70_reset_and_hazards.md R306). -/

namespace Sys2Proof.Machine

/-- Settles O33: the state a busy cycle leaves, its outputs and its events are functions of the sequencer's view. -/
theorem runningSequenceIgnoresTheHost : Obligations.RunningSequenceIgnoresTheHost := by
  intro p d s t s' t' hv hi hs ht hcs hct
  have hi' : t.st ≠ .idle := (seqView_eq hv).1 ▸ hi
  refine ⟨?_, ?_, ?_⟩
  · rw [busy_cycle_view hcs hs hi, busy_cycle_view hct ht hi', sequence_view p d hv]
  · rw [cycle_ports hcs hs, cycle_ports hct ht, outputs_view hv]
  · rw [cycle_events hcs hs, cycle_events hct ht, events_view p d hv]

/-! ### The host's registers and flags -/

/-- The host's registers and flags after one of its operations (R43 to R46, R221, R222, R261, R262). -/
def State.opHostView (s : State) : Instr → HostView
  | .wrExposure v => { s.hostView with exposureUs := v }
  | .wrFrameLen v => { s.hostView with frameLen := v }
  | .wrBufBase v => { s.hostView with bufBase := v }
  | .wrTrigCtrl v => { s.hostView with trigEn := trigEnOf v, trigIndex := trigIndexOf v }
  | .clrerr => { s.hostView with cmdErr := false, lenErr := false, addrErr := false }
  | .cmdRsv _ _ => { s.hostView with cmdErr := true }
  | .init => { s.hostView with cmdErr := s.cmdErr || s.busy }
  | .capture =>
    { s.hostView with
      cmdErr := s.cmdErr || s.busy
      lenErr := s.lenErr || (!s.busy && s.lenBad)
      addrErr := s.addrErr || (!s.busy && s.addrBad) }
  | .nop | .rdCmd | .rdStatus | .rdExposure | .rdFrameLen | .rdBufBase | .rdTrigCtrl | .rdPulseCount | .rdFrameCount
  | .wrStatus _ | .wrPulseCount _ | .wrFrameCount _ => s.hostView

/-- The host's registers and flags after a cycle with the operation `o`, or with none. -/
def State.hostViewAfter (s : State) (o : Option Instr) : HostView := o.elim s.hostView s.opHostView

section
variable {p : Params} {d : Draws} {s t : State} {o : Option Instr}

/-- The table above is what the operations do. -/
theorem exec_hostView {i : Instr} (h : exec i s = .next t) : t.hostView = s.opHostView i := by
  cases i with
  | init =>
    change execInit s = .next t at h
    rw [execInit_eq] at h
    obtain rfl := Host.Outcome.next.inj h
    cases hb : s.busy <;> simp [State.opHostView, hb, State.hostView]
  | capture =>
    change execCapture s = .next t at h
    rw [execCapture_eq] at h
    obtain rfl := Host.Outcome.next.inj h
    cases hb : s.busy
    · cases hbad : s.lenBad || s.addrBad <;> simp_all [State.opHostView, State.hostView]
    · simp [State.opHostView, hb, State.hostView]
  | nop | clrerr | cmdRsv | rdCmd | rdStatus | rdExposure | rdFrameLen | rdBufBase | rdTrigCtrl | rdPulseCount
  | rdFrameCount | wrStatus | wrExposure | wrFrameLen | wrBufBase | wrTrigCtrl | wrPulseCount | wrFrameCount =>
    cases h
    rfl

/-- A cycle with `rst = 0` does to the host's registers and flags what its host operation does, and nothing else. -/
theorem cycle_hostView (h : cycle p d s = .next t) (hr : s.stimulus.rst = false) :
    t.hostView = s.hostViewAfter (s.hostOp p) := by
  obtain ⟨-, ⟨hr', -⟩ | ⟨-, u, hu, rfl⟩⟩ := cycle_next h
  · exact absurd hr (by simp [hr'])
  · have hhost : u.hostView = s.hostViewAfter (s.hostOp p) := by
      obtain ⟨hb, rfl⟩ | ⟨x, hb, hx⟩ := hostCycle_next hu
      · rw [State.hostOp, hb]; rfl
      · rw [exec_hostView hx, State.hostOp, hb]; rfl
    rw [← hhost]
    by_cases hi : s.st = .idle
    · rw [State.endCycle_idle _ _ _ _ _ hi]; rfl
    · rw [State.endCycle_busy _ _ _ _ _ hi]; exact (sequence_host u p d).1

theorem hostView_eq (h : t.hostView = s.hostViewAfter o) :
    t.exposureUs = (s.hostViewAfter o).exposureUs ∧ t.frameLen = (s.hostViewAfter o).frameLen ∧
      t.bufBase = (s.hostViewAfter o).bufBase ∧ t.trigEn = (s.hostViewAfter o).trigEn ∧
      t.trigIndex = (s.hostViewAfter o).trigIndex ∧ t.cmdErr = (s.hostViewAfter o).cmdErr ∧
      t.lenErr = (s.hostViewAfter o).lenErr ∧ t.addrErr = (s.hostViewAfter o).addrErr := by
  rw [← h]
  exact ⟨rfl, rfl, rfl, rfl, rfl, rfl, rfl, rfl⟩

/-! Each register changes by its own write only. -/

theorem State.hostViewAfter_exposureUs (h : ∀ v, o ≠ some (.wrExposure v)) :
    (s.hostViewAfter o).exposureUs = s.exposureUs := by
  rcases o with _ | i
  · rfl
  cases i
  case wrExposure v => exact absurd rfl (h v)
  all_goals rfl

theorem State.hostViewAfter_frameLen (h : ∀ v, o ≠ some (.wrFrameLen v)) :
    (s.hostViewAfter o).frameLen = s.frameLen := by
  rcases o with _ | i
  · rfl
  cases i
  case wrFrameLen v => exact absurd rfl (h v)
  all_goals rfl

theorem State.hostViewAfter_bufBase (h : ∀ v, o ≠ some (.wrBufBase v)) :
    (s.hostViewAfter o).bufBase = s.bufBase := by
  rcases o with _ | i
  · rfl
  cases i
  case wrBufBase v => exact absurd rfl (h v)
  all_goals rfl

theorem State.hostViewAfter_trig (h : ∀ v, o ≠ some (.wrTrigCtrl v)) :
    (s.hostViewAfter o).trigEn = s.trigEn ∧ (s.hostViewAfter o).trigIndex = s.trigIndex := by
  rcases o with _ | i
  · exact ⟨rfl, rfl⟩
  cases i
  case wrTrigCtrl v => exact absurd rfl (h v)
  all_goals exact ⟨rfl, rfl⟩

/-! An error flag falls by CLRERR only, and each rises by the operations of its own (R261, R262). -/

/-- The error flags after an operation that is not CLRERR: nothing lowers one, and what raises it. -/
theorem State.hostViewAfter_errors (h : o ≠ some .clrerr) :
    ((s.hostViewAfter o).cmdErr = true ↔ s.cmdErr = true ∨ (∃ op rsv, o = some (.cmdRsv op rsv)) ∨
      (s.st ≠ .idle ∧ (o = some .init ∨ o = some .capture))) ∧
    ((s.hostViewAfter o).lenErr = true ↔ s.lenErr = true ∨ (s.st = .idle ∧ o = some .capture ∧ s.lenBad = true)) ∧
    ((s.hostViewAfter o).addrErr = true ↔ s.addrErr = true ∨ (s.st = .idle ∧ o = some .capture ∧ s.addrBad = true)) := by
  rcases o with _ | i
  · simp [State.hostViewAfter, State.hostView]
  cases i
  case clrerr => exact absurd rfl h
  all_goals simp [State.hostViewAfter, State.opHostView, State.hostView, State.busy]

/-- After CLRERR no error flag stands. -/
theorem State.hostViewAfter_clrerr :
    (s.hostViewAfter (some .clrerr)).cmdErr = false ∧ (s.hostViewAfter (some .clrerr)).lenErr = false ∧
      (s.hostViewAfter (some .clrerr)).addrErr = false := ⟨rfl, rfl, rfl⟩

end

/-- Settles O31: a cycle leaves the host's registers and flags as its operation does (`cycle_hostView`), and each clause
reads off what the operations do to one of them. -/
theorem hostRegistersChangeOnlyByTheirWrites : Obligations.HostRegistersChangeOnlyByTheirWrites := by
  intro p d s t hr hc
  obtain ⟨hexp, hlen, hbase, hen, hidx, hcmdErr, hlenErr, haddrErr⟩ := hostView_eq (cycle_hostView hc hr)
  rw [hexp, hlen, hbase, hen, hidx, hcmdErr, hlenErr, haddrErr]
  refine ⟨State.hostViewAfter_exposureUs, State.hostViewAfter_frameLen, State.hostViewAfter_bufBase,
    State.hostViewAfter_trig, ?_⟩
  by_cases ho : s.hostOp p = some .clrerr
  · obtain ⟨h1, h2, h3⟩ := State.hostViewAfter_clrerr (s := s)
    simp [ho, h1, h2, h3]
  · obtain ⟨h1, h2, h3⟩ := State.hostViewAfter_errors (s := s) ho
    have hlb : s.lenBad = true ↔ s.frameLen ≠ 2560#32 := by simp [State.lenBad]
    have hab : s.addrBad = true ↔ 0xFFFFF600 < s.bufBase.toNat := by simp [State.addrBad, BitVec.lt_def]
    rw [h1, h2, h3, hlb, hab]
    refine ⟨fun _ => ⟨.inl, .inl, .inl⟩, ?_, ?_, ?_⟩
    all_goals
      intro hf ht
      exact ht.resolve_left (by simp [hf])

/-! ### The latched configuration -/

/-- In IDLE only the operation that begins a capture writes the latched copies (R38). -/
theorem HostEffect.latched {s u : State} (h : HostEffect s u) (hi : s.st = .idle) :
    (u.st = .capSiStart ∧ u.expL = s.exposureUs ∧ u.baseL = s.bufBase ∧ u.tenL = s.trigEn ∧ u.tidxL = s.trigIndex) ∨
      (u.st ≠ .capSiStart ∧ u.expL = s.expL ∧ u.baseL = s.baseL ∧ u.tenL = s.tenL ∧ u.tidxL = s.tidxL) := by
  cases h with
  | startCapture => exact .inl ⟨rfl, rfl, rfl, rfl, rfl⟩
  | startFlush => exact .inr ⟨by simp, rfl, rfl, rfl, rfl⟩
  | none | cmdErr | argErrs | clearErrs | exposure | frameLen | bufBase | trig =>
    exact .inr ⟨by simp [hi], rfl, rfl, rfl, rfl⟩

/-- Settles O32: in IDLE by `HostEffect.latched`; while a sequence runs no host operation touches its view, and the
sequencer never writes the latched copies. -/
theorem configurationIsLatchedAtTheStart : Obligations.ConfigurationIsLatchedAtTheStart := by
  intro p d s t hr hc
  by_cases hi : s.st = .idle
  · obtain ⟨v, u, hu, rfl⟩ := idle_cycle hc hr hi
    obtain ⟨hst, hcopies⟩ | ⟨hst, hsame⟩ := hu.latched hi
    · exact ⟨fun _ _ => hcopies, fun h => absurd hst (h.resolve_left (absurd hi))⟩
    · exact ⟨fun _ h => absurd h hst, fun _ => hsame⟩
  · obtain ⟨-, -, -, -, -, -, -, hexp, hbase, hten, htidx, -⟩ := seqView_eq (busy_cycle_view hc hr hi)
    obtain ⟨-, hexp', hbase', hten', htidx'⟩ := sequence_host s p d
    exact ⟨fun h => absurd h hi, fun _ => ⟨hexp.trans hexp', hbase.trans hbase', hten.trans hten', htidx.trans htidx'⟩⟩

end Sys2Proof.Machine

/-! PROOFS. The counters and the ends of sequences: PULSE_COUNT counts the rising edges of CLOCK (spec/10_state.md R47),
FRAME_COUNT and FLUSHED change where sequences end and begin (R48, R50), and `Done` is shown at the same edge (R175, R197). -/

namespace Sys2Proof.Machine

section
variable {p : Params} {d : Draws} {s t : State}

theorem slot_view (h : s.seqView = t.seqView) : s.slot = t.slot := by
  obtain ⟨hst, -, -, hsub, -⟩ := seqView_eq h
  simp [State.slot, hst, hsub]

/-! ### PULSE_COUNT -/

/-- CLOCK is high in the phases that say so and in no other slot. -/
theorem State.outputs_clkOut (s : State) : s.outputs.clkOut = s.slot.startsHigh := by
  unfold State.outputs
  cases s.slot <;> rfl

/-- Beginning a slot counts one rising edge where the slot holds CLOCK high. -/
theorem State.enter_pulseCount_eq (s : State) (st : Fsm) (sub pidx iter : Nat) :
    (s.enter st sub pidx iter).pulseCount =
      s.pulseCount + if (s.enter st sub pidx iter).slot.startsHigh = true then 1#32 else 0#32 := by
  rw [State.enter_pulseCount, State.enter_slot]
  split <;> simp

theorem NextEntry.pulseCount (h : NextEntry s t) :
    t.pulseCount = s.pulseCount + if t.slot.startsHigh = true then 1#32 else 0#32 := by
  cases h with
  | siStartEnd | propPulse =>
    rw [State.beginProp_eq]
    exact State.enter_pulseCount_eq ..
  | _ => exact State.enter_pulseCount_eq ..

/-- A slot with CLOCK high is slot 1 of a pulse. -/
theorem State.sub_of_startsHigh (h : s.slot.startsHigh = true) :
    s.sub = 1 ∧ s.st ≠ .boot ∧ s.st ≠ .capExpo := by
  rcases slot_cases s with h' | ⟨c, v, e, h', hpos⟩ | ⟨h', -⟩ | ⟨h', -⟩ | ⟨l, h', -⟩ | ⟨h', -⟩
  case inr.inl =>
    rw [h'] at h
    obtain rfl : c = true := h
    grind
  all_goals simp [h', Slot.startsHigh] at h

/-- CLOCK falls after every slot that holds it high (R142, R143). -/
theorem NextEntry.falls (h : NextEntry s t) (hs : s.slot.startsHigh = true) : t.slot.startsHigh = false := by
  obtain ⟨hsub, hboot, hexpo⟩ := State.sub_of_startsHigh hs
  cases h with
  | flushLow hst => rcases hst with hst | hst <;> rw [hst] <;> rfl
  | siPhase hst => rcases hst with hst | hst | hst <;> rw [hst, hsub] <;> rfl
  | propPhase | readSlot => rw [hsub]; rfl
  | bootClock hst | bootEnd hst => exact absurd hst hboot
  | expoEnd hst => exact absurd hst hexpo
  | flushPulse | flushAEnd | flushBEnd | flushSiEnd | siStartEnd | siStopEnd | propPulse | propEndSkip | propEndWait
  | readIter | readEnd => omega

/-- At the edge that ends a slot PULSE_COUNT counts a rising edge of CLOCK, and nothing else. -/
theorem NextEntry.pulseCount_rises (h : NextEntry s t) :
    t.pulseCount = s.pulseCount +
      if s.slot.startsHigh = false ∧ t.slot.startsHigh = true then 1#32 else 0#32 := by
  rw [h.pulseCount]
  cases hs : s.slot.startsHigh with
  | false => simp
  | true => simp [h.falls hs]

theorem SlotCycle.pulseCount_rises (h : SlotCycle p d s t) :
    t.pulseCount = s.pulseCount +
      if s.slot.startsHigh = false ∧ t.slot.startsHigh = true then 1#32 else 0#32 := by
  cases h with
  | noSlot | unanswered | phaseHeld | prescCounts | usCounts => simp
  | phaseEnds hslot | strobe hslot =>
    exact (nextEntry_advance (State.st_ne_idle_of_slot (by simp [hslot]))).pulseCount_rises
  | answered hslot | stored _ hslot | waited hslot =>
    exact (nextEntry_advance (State.st_ne_idle_of_slot (by simp [hslot]))).pulseCount_rises

/-- In IDLE a host operation counts a rising edge where it begins the flush, and nowhere else. -/
theorem HostEffect.pulseCount_rises (h : HostEffect s t) (hi : s.st = .idle) :
    t.pulseCount = s.pulseCount + if t.slot.startsHigh = true then 1#32 else 0#32 := by
  cases h with
  | startFlush | startCapture => exact State.enter_pulseCount_eq ..
  | none | cmdErr | argErrs | clearErrs | exposure | frameLen | bufBase | trig =>
    simp [State.slot, hi, slotAt, Slot.startsHigh]

end

/-- Settles O29: CLOCK is the level of the slot, a slot with CLOCK high is never followed by another, and beginning one
counts one edge. -/
theorem pulseCountCountsRisingEdges : Obligations.PulseCountCountsRisingEdges := by
  refine ⟨rfl, fun p d s t hr hc => ?_⟩
  rw [State.outputs_clkOut, State.outputs_clkOut]
  by_cases hi : s.st = .idle
  · obtain ⟨v, u, hu, rfl⟩ := idle_cycle hc hr hi
    have hlow : s.slot.startsHigh = false := by rw [State.slot_idle hi]; rfl
    simp only [hlow, true_and]
    exact hu.pulseCount_rises hi
  · have hv := busy_cycle_view hc hr hi
    obtain ⟨-, -, -, -, -, -, -, -, -, -, -, -, -, hcount, -⟩ := seqView_eq hv
    rw [hcount, slot_view hv]
    exact (slotCycle_sequence p d s).pulseCount_rises

section
variable {p : Params} {d : Draws} {s t : State}

/-! ### FRAME_COUNT and FLUSHED -/

/-- At the edge that ends a slot FRAME_COUNT counts a capture that ends, and FLUSHED rises where a flush ends. -/
theorem NextEntry.counts (h : NextEntry s t) :
    t.frameCount = s.frameCount + (if s.st = .capRead ∧ t.st = .idle then 1#32 else 0#32) ∧
      t.flushed = if s.st = .flushB ∧ t.st = .idle then true else s.flushed := by
  cases h with
  | flushLow hst | flushPulse hst => rcases hst with hst | hst <;> simp [hst]
  | siPhase hst => rcases hst with hst | hst | hst <;> simp [hst]
  | siStartEnd hst | propPulse hst => simp [hst, State.beginProp_eq]
  | bootClock hst | bootEnd hst | flushAEnd hst | flushBEnd hst | flushSiEnd hst | siStopEnd hst | propPhase hst
  | propEndSkip hst | propEndWait hst | expoEnd hst | readSlot hst | readIter hst | readEnd hst => simp [hst]

theorem SlotCycle.counts (h : SlotCycle p d s t) (hi : s.st ≠ .idle) :
    t.frameCount = s.frameCount + (if s.st = .capRead ∧ t.st = .idle then 1#32 else 0#32) ∧
      t.flushed = if s.st = .flushB ∧ t.st = .idle then true else s.flushed := by
  cases h with
  | noSlot | unanswered | phaseHeld | prescCounts | usCounts => simp [hi]
  | phaseEnds | strobe => exact (nextEntry_advance hi).counts
  | answered => exact (nextEntry_advance (s := s.takeSample p d) hi).counts
  | stored lane => exact (nextEntry_advance (s := s.storeLane lane) hi).counts
  | waited => exact (nextEntry_advance (s := s.countUs) hi).counts

/-- In IDLE a host operation leaves FRAME_COUNT, and lowers FLUSHED where it begins the flush. -/
theorem HostEffect.counts (h : HostEffect s t) (hi : s.st = .idle) :
    t.frameCount = s.frameCount ∧ t.flushed = if t.st = .flushA then false else s.flushed := by
  cases h <;> simp [hi]

/-! ### Done -/

theorem slotAt_flushB {n : Nat} (h : slotAt .flushB n ≠ .none) (h1 : n ≠ 1) : n = 2 := by
  match n with
  | 0 => exact absurd rfl h
  | 1 => exact absurd rfl h1
  | 2 => rfl
  | n + 3 => exact absurd rfl h

theorem slotAt_capRead {n : Nat} (h : slotAt .capRead n ≠ .none) (h6 : ¬ n < 6) : n = 6 := by
  match n with
  | 0 | 1 | 2 | 3 | 4 | 5 => exact absurd (by omega) h6
  | 6 => rfl
  | n + 7 => exact absurd rfl h

/-- The edge that ends a slot shows `Done` exactly if it leads to IDLE (R175, R197). -/
theorem NextEntry.done_iff (h : NextEntry s t) (hslot : s.slot ≠ .none) : Event.done ∈ s.endEvents ↔ t.st = .idle := by
  unfold State.slot at hslot
  unfold State.endEvents
  cases h with
  | flushLow hst hsub => rcases hst with hst | hst <;> simp [hst, hsub]
  | flushPulse hst _ hp => rcases hst with hst | hst <;> simp [hst, hp]
  | siPhase hst => rcases hst with hst | hst | hst <;> simp [hst]
  | flushBEnd hst hsub hp =>
    rw [hst] at hslot
    simpa [hst, slotAt_flushB hslot hsub] using hp
  | readEnd hst hsub hn =>
    rw [hst] at hslot
    simpa [hst, slotAt_capRead hslot hsub] using hn
  | readSlot hst hsub => simp [hst, hsub.ne]
  | readIter hst _ hn => simp [hst, hn]
  | siStartEnd hst => simp [hst, State.beginProp_eq]
  | propPulse hst => simp [hst, State.beginProp_eq]
  | bootClock hst | bootEnd hst | flushAEnd hst | flushSiEnd hst | siStopEnd hst | propPhase hst | propEndSkip hst
  | propEndWait hst | expoEnd hst => simp [hst]

/-- A phase's own event is never `Done`. -/
theorem State.phase_event_ne_done {c v : Bool} {e : Event} (h : s.slot = .phase c v e) : Event.done ≠ e := by
  rintro rfl
  unfold State.slot at h
  generalize s.sub = k at h
  cases hst : s.st <;> rw [hst] at h <;> rcases k with _ | _ | _ | _ | _ | _ | _ | k <;>
    simp [slotAt, bootSlot, clkPulseSlot, siPulseSlot, capPropSlot, capReadSlot] at h

/-- A cycle of a running sequence shows `Done` exactly if it leads to IDLE. -/
theorem SlotCycle.done_iff (h : SlotCycle p d s t) (hi : s.st ≠ .idle) :
    Event.done ∈ s.cycleEvents p d ↔ t.st = .idle := by
  have hfirst : ∀ {c v e}, s.slot = .phase c v e → Event.done ∉ if s.tcnt = 0 then [e] else [] := by
    intro c v e hslot
    split <;> simp [State.phase_event_ne_done hslot]
  cases h with
  | noSlot hslot | prescCounts hslot | usCounts hslot => simp [State.cycleEvents, hslot, hi]
  | unanswered hslot hv => simp [State.cycleEvents, hslot, hv, hi]
  | phaseHeld hslot hk => simp [State.cycleEvents_phase hslot, hfirst hslot, hk, hi]
  | phaseEnds hslot hk =>
    have hend := (nextEntry_advance hi).done_iff (by simp [hslot])
    simp [State.cycleEvents_phase hslot, hfirst hslot, hk, hend]
  | strobe hslot =>
    have hend := (nextEntry_advance hi).done_iff (by simp [hslot])
    rw [← hend]
    obtain ⟨hst, hsub⟩ := State.slot_trig hslot
    simp [State.cycleEvents, hslot, State.endEvents, hst, hsub]
  | answered hslot hv =>
    have hend := (nextEntry_advance (s := s.takeSample p d) hi).done_iff (by simp [hslot])
    rw [← hend]
    obtain ⟨hst, hsub⟩ := State.slot_sample hslot
    simp [State.cycleEvents, hslot, hv, State.endEvents, hst, hsub]
  | stored lane hslot =>
    have hend := (nextEntry_advance (s := s.storeLane lane) hi).done_iff (by simp [hslot])
    rw [← hend]
    simp [State.cycleEvents, hslot, State.endEvents]
  | waited hslot =>
    have hend := (nextEntry_advance (s := s.countUs) hi).done_iff (by simp [hslot])
    rw [← hend]
    simp [State.cycleEvents, hslot, State.endEvents, State.slot_wait hslot]

end

/-- Settles O30: in IDLE the host's operation lowers FLUSHED where it begins the flush; while a sequence runs, `counts` and
`done_iff` say it of the slot's cycle. -/
theorem endsOfSequencesAreCounted : Obligations.EndsOfSequencesAreCounted := by
  intro p d s t hr hc
  rw [cycle_events hc hr]
  by_cases hi : s.st = .idle
  · have hno : s.cycleEvents p d = [] := by simp [State.cycleEvents, State.slot_idle hi]
    obtain ⟨v, u, hu, rfl⟩ := idle_cycle hc hr hi
    obtain ⟨hframe, hflushed⟩ := hu.counts hi
    simp [hi, hno, hframe, hflushed]
  · have hslot := slotCycle_sequence p d s
    obtain ⟨hst, -, -, -, -, -, -, -, -, -, -, -, -, -, hframe, hflushed⟩ := seqView_eq (busy_cycle_view hc hr hi)
    obtain ⟨hframe', hflushed'⟩ := hslot.counts hi
    rw [hst, hframe, hflushed, hframe', hflushed', hslot.done_iff hi]
    simp [hi]

end Sys2Proof.Machine

/-! PROOFS. STATUS (spec/10_state.md R42), the outputs (R31, R51) and the trigger strobe (spec/40_primitives.md R145, R151,
spec/42_capture.md R193). -/

namespace Sys2Proof.Machine

/-! ### STATUS -/

/-- STATUS, bit by bit (R42). -/
theorem State.statusWord_bit (s : State) (i : Nat) :
    s.statusWord.getLsbD i =
      match i with
      | 0 => s.busy
      | 1 => s.flushed
      | 2 => s.cmdErr
      | 3 => s.lenErr
      | 4 => s.addrErr
      | 5 | 6 | 7 => false
      | n + 8 => s.st.code.getLsbD n := by
  have happ : s.statusWord.getLsbD i =
      (0#20 ++ s.st.code ++ 0#3 ++ BitVec.ofBool s.addrErr ++ BitVec.ofBool s.lenErr ++ BitVec.ofBool s.cmdErr
        ++ BitVec.ofBool s.flushed ++ BitVec.ofBool s.busy).getLsbD i := rfl
  simp only [happ, BitVec.getLsbD_append]
  rcases i with _ | _ | _ | _ | _ | _ | _ | _ | n
  case succ.succ.succ.succ.succ.succ.succ.succ =>
    simp +arith
    intro h
    exact Nat.le_of_lt_succ (BitVec.lt_of_getLsbD h)
  all_goals simp

/-- Settles O15: each clause reads off `State.statusWord_bit`. -/
theorem statusLayout : Obligations.StatusLayout := by
  intro s
  have hcode : s.st.code.toNat ≤ 9 := by cases s.st <;> decide
  refine ⟨s.statusWord_bit 0, s.statusWord_bit 1, s.statusWord_bit 2, s.statusWord_bit 3, s.statusWord_bit 4,
    ?_, ?_, ?_, hcode⟩
  · ext i hi
    rw [BitVec.getElem_extractLsb', State.statusWord_bit]
    match i with
    | 0 | 1 | 2 => simp
  · ext i hi
    rw [BitVec.getElem_extractLsb', Nat.add_comm, State.statusWord_bit]
    exact BitVec.getLsbD_eq_getElem hi
  · ext i hi
    rw [BitVec.getElem_extractLsb', show 12 + i = i + 4 + 8 by omega, State.statusWord_bit]
    simp
/-! ### Which slot drives which line -/

section
variable {s : State}

theorem State.outputs_busy (s : State) : s.outputs.busy = s.busy := by
  unfold State.outputs
  cases s.slot <;> rfl

theorem State.outputs_trigOut : s.outputs.trigOut = true ↔ s.slot = .trig := by
  unfold State.outputs
  cases s.slot <;> simp [State.restPorts]

theorem State.outputs_smpReq : s.outputs.smpReq = true ↔ s.slot = .sample := by
  unfold State.outputs
  cases s.slot <;> simp [State.restPorts]

theorem State.outputs_wrEn : s.outputs.wrEn = true ↔ ∃ lane, s.slot = .write lane := by
  unfold State.outputs
  cases s.slot <;> simp [State.restPorts]

/-- With the write strobe low the write port is 0 (R31). -/
theorem State.outputs_write_rest (h : s.outputs.wrEn = false) : s.outputs.wrAddr = 0#32 ∧ s.outputs.wrData = 0#8 := by
  unfold State.outputs at h ⊢
  cases hslot : s.slot with
  | write lane => simp [hslot] at h
  | none | phase | trig | sample | wait => exact ⟨rfl, rfl⟩

/-- BOOT drives the two lines low and nothing else (R171). -/
theorem boot_outputs (h : s.st = .boot) : s.outputs = s.restPorts := by
  unfold State.outputs State.slot
  rw [h]
  match s.sub with
  | 0 | 1 | n + 2 => rfl

end

/-- Settles O27: each strobe belongs to one kind of slot, and each kind of slot to one state. -/
theorem outputsOnlyInTheirStates : Obligations.OutputsOnlyInTheirStates := by
  intro s
  refine ⟨fun h => ?_, fun h => ?_, fun h => ?_, State.outputs_write_rest, fun h => ?_, ?_⟩
  · obtain ⟨lane, hslot⟩ := State.outputs_wrEn.1 h
    exact State.slot_write hslot
  · exact (State.slot_sample (State.outputs_smpReq.1 h)).1
  · exact (State.slot_trig (State.outputs_trigOut.1 h)).1
  · rcases h with h | h
    · exact idle_outputs h
    · exact boot_outputs h
  · rw [State.outputs_busy, State.statusWord_bit]

/-! ### The trigger strobe -/

section
variable {s : State}

/-- The trigger slot is followed by CLOCK high of the pulse it stands before. -/
theorem State.advance_trig (h : s.slot = .trig) : s.advance = s.enter .capProp 1 s.pidx 0 := by
  obtain ⟨hst, hsub⟩ := State.slot_trig h
  simp [State.advance, hst, State.advanceProp, hsub]

/-- The end of a propagation pulse that is not the last begins the next (R193). -/
theorem State.advance_propPulse (hst : s.st = .capProp) (hsub : s.sub = 2) (hp : s.pidx + 1 < Config.propPulses) :
    s.advance = s.beginProp (s.pidx + 1) := by
  simp [State.advance, hst, State.advanceProp, hsub, hp]

/-- The end of the start marker begins propagation pulse 0 (R192). -/
theorem State.advance_siStart (hst : s.st = .capSiStart) (hsub : s.sub = 3) : s.advance = s.beginProp 0 := by
  simp [State.advance, hst, State.advanceSi, hsub]

/-- A cycle that is the last of its phase leads to the "next" entry. -/
theorem phase_end_view {p : Params} {d : Draws} {t : State} {c v : Bool} {e : Event} (hc : cycle p d s = .next t)
    (hr : s.stimulus.rst = false) (hslot : s.slot = .phase c v e) (hk : s.tcnt + 1 = p.tHalf) :
    t.seqView = s.advance.seqView := by
  rw [busy_cycle_view hc hr (State.st_ne_idle_of_phase hslot), State.sequence_phase hslot, if_pos hk]

/-- Where a state begins a propagation pulse. -/
theorem seqView_beginProp {t : State} {n : Nat} (h : t.seqView = (s.beginProp n).seqView) :
    t.st = .capProp ∧ t.pidx = n ∧ t.sub = if s.tenL = true ∧ s.tidxL.toNat = n then 0 else 1 := by
  rw [State.beginProp_eq] at h
  obtain ⟨hst, hpidx, -, hsub, -⟩ := seqView_eq h
  exact ⟨hst, hpidx, hsub⟩

end

/-- Settles O46: the invariant holds the trigger slot to the pulse TIDX_L, and `State.beginProp` is where the slot tables
lead at the end of a propagation pulse and of the start marker. -/
theorem triggerStrobeFiresBeforeItsPulse : Obligations.TriggerStrobeFiresBeforeItsPulse := by
  intro p d s t hinv hr hc
  refine ⟨fun htrig => ?_, fun hst hsub hk hp => ?_, fun hst hsub hk => ?_⟩
  · have hslot := State.outputs_trigOut.1 htrig
    obtain ⟨hst, hsub⟩ := State.slot_trig hslot
    have hpos := hinv.pos
    simp only [State.posOk, hst] at hpos
    obtain ⟨-, hp, -, hstrobe⟩ := hpos
    obtain ⟨hten, htidx⟩ := hstrobe hsub
    have hv : t.seqView = (s.enter .capProp 1 s.pidx 0).seqView := by
      rw [busy_cycle_view hc hr (by simp [hst]), ← State.advance_trig hslot]
      simp [State.sequence, hslot]
    obtain ⟨htst, htpidx, -, htsub, -⟩ := seqView_eq hv
    have hout : t.outputs = { t.restPorts with clkOut := true } := State.outputs_phase (slot_view hv)
    have hev : t.events = [.trig] := by simp [cycle_events hc hr, State.cycleEvents, hslot]
    exact ⟨hten, htidx, hp, hev, htst, htsub, htpidx, by rw [hout], by rw [hout]; rfl⟩
  · have hslot : s.slot = .phase false false (.clk false) := by
      simp [State.slot, hst, hsub, slotAt, capPropSlot, clkPulseSlot]
    have hv := phase_end_view hc hr hslot hk
    rw [State.advance_propPulse hst hsub (show s.pidx + 1 < 1080 by omega)] at hv
    exact seqView_beginProp hv
  · have hslot : s.slot = .phase false false (.si false) := by
      simp [State.slot, hst, hsub, slotAt, siPulseSlot]
    have hv := phase_end_view hc hr hslot hk
    rw [State.advance_siStart hst hsub] at hv
    exact seqView_beginProp hv

end Sys2Proof.Machine

/-! PROOFS. Whole cycles seen from outside: reset (spec/10_state.md R52, spec/60_exceptions.md R300), the quiet cycle
(spec/43_host_ops.md R238), the frame memory (spec/20_memory.md R80 to R88), the register window (R90, R92), and single
host operations. -/

namespace Sys2Proof.Machine

/-! ### Reset -/

/-- A cycle with `rst = 1` and no broken ownership goes on, whatever the host does (R265). -/
theorem cycle_of_reset {s : State} (p : Params) (d : Draws) (hf : s.conflicts s.stimulus = false)
    (hr : s.stimulus.rst = true) : cycle p d s = .next (s.resetCycle d s.stimulus) := by
  simp [cycle, hf, hr]

theorem State.stimulus_cons {s : State} {m : Stimulus} {rest : List Stimulus} (h : s.pending = m :: rest) :
    s.stimulus = m := by
  simp [State.stimulus, h]

/-- The frame memory seen after another agent's access. -/
theorem FrameAccess.read_apply (f : FrameAccess) (mem : Memory) (x : Addr) :
    Memory.read (f.apply mem) x =
      match f with
      | .write y b => if x = y then some b else Memory.read mem x
      | .quiet => Memory.read mem x
      | .read _ => Memory.read mem x := by
  cases f with
  | write y b => exact Memory.read_write mem y x b
  | quiet | read => rfl

/-- Settles O20: the cycle is a reset cycle, in which the block stores nothing. -/
theorem resetOverridesTheCycle : Obligations.ResetOverridesTheCycle := by
  intro p d s a f rest hp hf
  have hm := State.stimulus_cons hp
  refine ⟨_, cycle_of_reset p d (by rw [hm]; exact hf) (by rw [hm]), rfl, rfl, rfl, rfl, rfl, ?_, rfl, fun x => ?_⟩
  · rw [State.resetCycle_pending, hp]; rfl
  · rw [hm]
    exact FrameAccess.read_apply f s.mem x

/-- Settles O19: a reset cycle leaves the block as in the reset state, whose outputs are a function of that view; the rows of
the table are its fields. -/
theorem resetValues : Obligations.ResetValues := by
  refine ⟨fun p d s t hr hc => ?_, ?_⟩
  · have hv : t.seqView = State.reset.seqView := by rw [cycle_reset hc hr]; rfl
    exact ⟨hv, by rw [cycle_reset hc hr]; rfl, outputs_view hv⟩
  · decide

/-! ### The quiet cycle -/

/-- Settles O18: nothing is applied and no slot runs, so only the records of the last cycle change. -/
theorem quietIdleCycleChangesNothing : Obligations.QuietIdleCycleChangesNothing := by
  intro p d s hi hp
  have hports : s.outputs = ⟨false, false, false, false, false, 0#32, 0#8, false⟩ := by
    simp [idle_outputs hi, State.restPorts, State.busy, hi]
  have hev : s.cycleEvents p d = [] := by simp [State.cycleEvents, State.slot_idle hi]
  have hcap : s.st.capturing = false := by rw [hi]; rfl
  rw [cycle_quiet hp, State.endCycle_idle _ _ _ _ _ hi, hports, hev]
  simp [State.settle, State.record, State.drive, State.nextFrameRdata, Stimulus.none, FrameAccess.apply, hcap, hp]

/-! ### The frame memory in one cycle -/

/-- Settles O24: `cycle_mem` says the memory after a cycle is the block's part and then the other agent's access. -/
theorem cycleChangesOnlyTheWrittenByte : Obligations.CycleChangesOnlyTheWrittenByte := by
  intro p d s t hc x
  rw [cycle_mem hc]
  have hother : (∀ a b, s.stimulus.frame = .write a b → x ≠ a) →
      Memory.read (s.stimulus.frame.apply s.blockMem) x = Memory.read s.blockMem x := by
    intro hx
    rw [FrameAccess.read_apply]
    cases hf : s.stimulus.frame with
    | write a b => simp [hx a b hf]
    | quiet | read => rfl
  refine ⟨fun a b hf hx => ?_, fun hx lane hr hslot ha => ?_, fun hx hno => ?_⟩
  · rw [hf, hx]
    exact Memory.read_write_same _ _ _
  · rw [hother hx, State.blockMem_write hr hslot, ha]
    exact Memory.read_write_same _ _ _
  · rw [hother hx]
    by_cases hw : ∃ lane, s.stimulus.rst = false ∧ s.slot = .write lane
    · obtain ⟨lane, hr, hslot⟩ := hw
      rw [State.blockMem_write hr hslot]
      exact Memory.read_write_other _ _ (hno lane hr hslot)
    · rw [State.blockMem_rest fun lane hr hslot => hw ⟨lane, hr, hslot⟩]

/-! ### The register window -/

theorem mappedUse_word (base : Nat) (we : Bool) (idx : BitVec 3) (v : Word) :
    mappedUse base we (base + 4 * idx.toNat) 4 v = .transaction (transactionOf (BitVec.ofBool we ++ idx) v) := by
  have hidx : idx.toNat < 8 := idx.isLt
  rw [mappedUse, if_neg (by omega), if_pos (by omega), Nat.add_sub_cancel_left, Nat.mul_div_cancel_left _ (by omega),
    BitVec.ofNat_toNat, BitVec.setWidth_eq]

theorem mappedUse_narrow (base : Nat) (we : Bool) {off n : Nat} (v : Word) (hoff : off < 32) (h1 : 1 ≤ n) (h3 : n ≤ 3) :
    mappedUse base we (base + off) n v = .subword := by
  rw [mappedUse, if_neg (by omega), if_neg (by omega)]

theorem mappedUse_outside (base : Nat) (we : Bool) {addr n : Nat} (v : Word)
    (h : addr + n ≤ base ∨ base + 32 ≤ addr) : mappedUse base we addr n v = .idle := by
  rw [mappedUse, if_pos (by omega)]

/-- Settles O22. -/
theorem registerWindowAccesses : Obligations.RegisterWindowAccesses := fun p we v =>
  ⟨fun idx => mappedUse_word p.regBase we idx v, fun _ _ hoff h1 h3 => mappedUse_narrow p.regBase we v hoff h1 h3,
    fun _ _ h => mappedUse_outside p.regBase we v h⟩

/-! ### Single host operations -/

/-- Settles O12: neither check of R262 fails, so the configuration is latched and the start marker begins, in which CLOCK is
low. -/
theorem idleCaptureLatchesAndStarts : Obligations.IdleCaptureLatchesAndStarts := by
  intro s hi hlen hbase
  have hb : s.busy = false := State.busy_eq_false.2 hi
  have hl : s.lenBad = false := by simp [State.lenBad, hlen]
  have ha : s.addrBad = false := by simpa [State.addrBad, BitVec.le_def] using hbase
  show execCapture s = _
  rw [execCapture_eq, hb, hl, ha]
  rfl

/-- Settles O16: EN and INDEX are kept, and the bits between read 0. -/
theorem trigCtrlReadsBack : Obligations.TrigCtrlReadsBack := by
  intro s v
  refine ⟨_, _, rfl, rfl, ?_⟩
  show trigIndexOf v ++ 0#15 ++ BitVec.ofBool (trigEnOf v) = v &&& 0xFFFF0001#32
  ext i hi
  simp only [trigIndexOf, trigEnOf, BitVec.getElem_and, BitVec.getElem_append, BitVec.getElem_extractLsb']
  interval_cases i <;> simp

end Sys2Proof.Machine

/-! PROOFS. The memory seen from outside: what a host operation leaves unchanged (spec/20_memory.md R88), the two
ways a cycle can stop (R90, R94), the frame read that races with a capture (R94), and the sample handshake, the one
slot the sampler's draw goes into (spec/40_primitives.md R146). -/

namespace Sys2Proof.Machine

/-! ### Host operations -/

/-- Every host operation is carried out: none stops the machine (R116, R260). -/
theorem exec_next (i : Instr) (s : State) : ∃ t, exec i s = .next t := by
  cases i with
  | init => exact ⟨_, execInit_eq s⟩
  | capture => exact ⟨_, execCapture_eq s⟩
  | nop | clrerr | cmdRsv | rdCmd | rdStatus | rdExposure | rdFrameLen | rdBufBase | rdTrigCtrl | rdPulseCount
  | rdFrameCount | wrStatus | wrExposure | wrFrameLen | wrBufBase | wrTrigCtrl | wrPulseCount | wrFrameCount =>
    exact ⟨_, rfl⟩

/-- Settles O14: every operation has one of the effects of `HostEffect`, and none of them reaches the memory, the
sample pair, the timer, FRAME_COUNT or the records of the last cycle. -/
theorem hostOperationFrame : Obligations.HostOperationFrame := by
  intro x s
  obtain ⟨t, ht⟩ := exec_next (decode x) s
  obtain ⟨v, u, hu, rfl⟩ := exec_effect ht
  refine ⟨_, ht, ?_⟩
  cases hu with
  | startFlush hidle | startCapture hidle =>
    exact ⟨rfl, rfl, rfl, rfl, rfl, rfl, rfl, rfl, rfl, rfl, rfl, rfl, absurd hidle⟩
  | none | cmdErr | argErrs | clearErrs | exposure | frameLen | bufBase | trig =>
    exact ⟨rfl, rfl, rfl, rfl, rfl, rfl, rfl, rfl, rfl, rfl, rfl, rfl, fun _ => rfl⟩

/-! ### The two stops of a cycle -/

/-- The running captures are the states with code 5 or more (R34). -/
theorem Fsm.capturing_iff (q : Fsm) : q.capturing = true ↔ 5 ≤ q.code.toNat := by
  cases q <;> decide

/-- What the running capture owns: its frame, and nothing while none runs (R307). -/
theorem State.owns_iff (s : State) (a : Addr) :
    s.owns a = true ↔ 5 ≤ s.st.code.toNat ∧ s.baseL.toNat ≤ a.toNat ∧ a.toNat < s.baseL.toNat + 2560 := by
  simp [State.owns, inFrame, Fsm.capturing_iff]

/-- Ownership is broken by a write into the frame of the running capture and by nothing else (R94). -/
theorem State.conflicts_iff (s : State) (m : Stimulus) :
    s.conflicts m = true ↔ ∃ a b, m.frame = .write a b ∧ s.owns a = true := by
  unfold State.conflicts
  cases m.frame <;> simp

section
variable {p : Params} {d : Draws} {s t : State}

/-- The host's part of a cycle stops the machine only by refusing a sub-word access (R90). -/
theorem hostCycle_stops (p : Params) (s : State) (m : Stimulus) :
    (busUse p m.access = .subword ∧ s.hostCycle p m = .refused .subwordAccess) ∨
      (busUse p m.access ≠ .subword ∧ ∃ u, s.hostCycle p m = .next u) := by
  unfold State.hostCycle
  cases busUse p m.access with
  | idle => exact .inr ⟨by simp, _, rfl⟩
  | transaction x => exact .inr ⟨by simp, exec_next (decode x) s⟩
  | subword => exact .inl ⟨rfl, rfl⟩

/-- Everything a cycle can answer, with the condition of each: a fault, a refusal, or a next state. -/
theorem cycle_cases (p : Params) (d : Draws) (s : State) :
    (s.conflicts s.stimulus = true ∧ cycle p d s = .fault .frameConflict) ∨
      (s.conflicts s.stimulus = false ∧ s.stimulus.rst = false ∧ busUse p s.stimulus.access = .subword ∧
        cycle p d s = .refused .subwordAccess) ∨
      (s.conflicts s.stimulus = false ∧ (s.stimulus.rst = true ∨ busUse p s.stimulus.access ≠ .subword) ∧
        ∃ t, cycle p d s = .next t) := by
  cases hc : s.conflicts s.stimulus with
  | true => exact .inl ⟨rfl, by simp [cycle, hc]⟩
  | false =>
    refine .inr ?_
    cases hr : s.stimulus.rst with
    | true => exact .inr ⟨rfl, .inl rfl, _, cycle_of_reset p d hc hr⟩
    | false =>
      rcases hostCycle_stops p s s.stimulus with ⟨hb, hh⟩ | ⟨hb, u, hh⟩
      · exact .inl ⟨rfl, rfl, hb, by simp [cycle, hc, hr, hh]⟩
      · exact .inr ⟨rfl, .inr hb, s.endCycle u p d s.stimulus, by simp [cycle, hc, hr, hh]⟩

/-- Settles O21: the three answers of `cycle_cases` exclude each other, and a conflict is a write into the frame of
a running capture. -/
theorem stopsOnlyOnABrokenDuty : Obligations.StopsOnlyOnABrokenDuty := by
  intro p d s
  have hconf : s.conflicts s.stimulus = true ↔ ∃ a b, s.stimulus.frame = .write a b ∧ 5 ≤ s.st.code.toNat ∧
      s.baseL.toNat ≤ a.toNat ∧ a.toNat < s.baseL.toNat + 2560 := by
    simp only [State.conflicts_iff, State.owns_iff]
  rw [← hconf]
  rcases cycle_cases p d s with ⟨hc, h⟩ | ⟨hc, hr, hb, h⟩ | ⟨hc, hgo, t, h⟩
  · exact ⟨fun r => by simp [h, hc], fun r => by simp [h, hc]⟩
  · exact ⟨fun r => by simp [h, hc], fun r => by simp [h, hc, hr, hb, eq_comm (a := r)]⟩
  · refine ⟨by simp [h, hc], fun r => ?_⟩
    rcases hgo with hr | hb
    · simp [h, hr]
    · simp [h, hb]

/-! ### The frame read that races with a capture -/

/-- A frame read of another agent returns `State.frameReadByte` at the memory the cycle leaves, which no access but
the block's own has changed (R94). -/
theorem cycle_frameRdata {a : Addr} (h : cycle p d s = .next t) (hf : s.stimulus.frame = .read a) :
    t.frameRdata = s.frameReadByte d t.mem a := by
  obtain ⟨-, ⟨-, rfl⟩ | ⟨-, u, -, rfl⟩⟩ := cycle_next h
  · simp [State.resetCycle, hf, FrameAccess.apply]
  · simp [State.endCycle, hf, FrameAccess.apply]

/-- Settles O23: the read is one of the three of `State.frameReadByte_cases`; in a write slot the cycle leaves the
lane's byte at its address. -/
theorem frameReadRace : Obligations.FrameReadRace := by
  intro p d s t hc
  refine ⟨fun a hf => ?_, fun hcap => ?_, fun hcap => ?_⟩
  · have hread := cycle_frameRdata hc hf
    have hstored : ∀ lane, s.stimulus.rst = false → s.slot = .write lane → a = s.laneAddr lane →
        Memory.byte t.mem a = s.laneData lane := by
      intro lane hr hslot ha
      rw [cycle_mem hc, hf, State.blockMem_write hr hslot, ha]
      simp [FrameAccess.apply, Memory.byte, Memory.read_write_same]
    rcases s.frameReadByte_cases d t.mem a with ⟨ho, hd, hb⟩ | ⟨ho, hd, hb⟩ | ⟨ho, hb⟩
    · simp [hread, hb, ho, hd]
    · simp only [hread, hb, ho, hd]
      refine ⟨nofun, fun _ _ => trivial, fun _ _ hr lane hslot ha => hstored lane hr hslot ha, nofun⟩
    · simp [hread, hb, ho]
  · rw [cycle_memBefore hc, if_pos hcap]
  · rw [cycle_memBefore hc, if_neg (by simp [hcap])]

/-! ### The sample handshake -/

/-- A sampler port cut to its low ADC_W bits (R147). -/
theorem rawSample_toNat (w : Nat) (v : Half) : (rawSample w v).toNat = v.toNat % 2 ^ w := by
  have hlt : v.toNat % 2 ^ w < 2 ^ 16 := (Nat.mod_le _ _).trans_lt v.isLt
  simp only [rawSample, BitVec.toNat_setWidth]
  exact Nat.mod_eq_of_lt hlt

theorem State.slot_of_sample (hst : s.st = .capRead) (hsub : s.sub = 0) : s.slot = .sample := by
  rw [State.slot, hst, hsub]; rfl

/-- The sampler's draw goes into the sample slot only. -/
theorem State.sequence_draws (h : s.slot ≠ .sample) (p : Params) (d d' : Draws) : s.sequence p d' = s.sequence p d := by
  unfold State.sequence
  cases hs : s.slot with
  | sample => exact absurd hs h
  | none | phase | trig | write | wait => rfl

theorem State.cycleEvents_draws (h : s.slot ≠ .sample) (p : Params) (d d' : Draws) :
    s.cycleEvents p d' = s.cycleEvents p d := by
  unfold State.cycleEvents
  cases hs : s.slot with
  | sample => exact absurd hs h
  | none | phase | trig | write | wait => rfl

/-- No "next" entry writes the sample pair. -/
theorem NextEntry.sample {s t : State} (h : NextEntry s t) : t.smpA = s.smpA ∧ t.smpB = s.smpB := by
  cases h <;> simp [State.beginProp_eq]

/-- The sample pair is written by an answer in the sample slot and by nothing else (R146). -/
theorem SlotCycle.sample {s t : State} (h : SlotCycle p d s t) (hs : s.slot ≠ .sample) :
    t.smpA = s.smpA ∧ t.smpB = s.smpB := by
  cases h with
  | noSlot | phaseHeld | prescCounts | usCounts => exact ⟨rfl, rfl⟩
  | unanswered hslot | answered hslot => exact absurd hslot hs
  | phaseEnds hslot | strobe hslot | stored _ hslot | waited hslot =>
    exact (nextEntry_advance (State.st_ne_idle_of_slot (by simp [hslot]))).sample

theorem HostEffect.sample {s t : State} (h : HostEffect s t) : t.smpA = s.smpA ∧ t.smpB = s.smpB := by
  cases h <;> exact ⟨rfl, rfl⟩

/-- Outside the sample slot two cycles from the same state differ in no more than what a racing frame read returns. -/
theorem cycle_draws {d' : Draws} {t' : State} (h : cycle p d s = .next t) (h' : cycle p d' s = .next t')
    (hs : s.slot ≠ .sample) : t'.seqView = t.seqView ∧ t'.mem = t.mem ∧ t'.events = t.events := by
  obtain ⟨-, ⟨hr, rfl⟩ | ⟨hr, u, hu, rfl⟩⟩ := cycle_next h
  · rw [cycle_reset h' hr]
    exact ⟨rfl, rfl, rfl⟩
  · obtain ⟨-, ⟨hr', -⟩ | ⟨-, u', hu', rfl⟩⟩ := cycle_next h'
    · exact absurd hr (by simp [hr'])
    · obtain rfl : u = u' := Host.Outcome.next.inj (hu.symm.trans hu')
      rw [State.endCycle_events, State.endCycle_events, State.cycleEvents_draws hs p d d']
      by_cases hi : s.st = .idle
      · rw [State.endCycle_idle _ _ _ _ _ hi, State.endCycle_idle _ _ _ _ _ hi]
        exact ⟨rfl, rfl, rfl⟩
      · have hslot : u.slot ≠ .sample := slot_view (hostCycle_view hu hi) ▸ hs
        rw [State.endCycle_busy _ _ _ _ _ hi, State.endCycle_busy _ _ _ _ _ hi, State.sequence_draws hslot p d d']
        exact ⟨rfl, rfl, rfl⟩

/-- Outside the sample slot a cycle leaves the sample pair (R146). -/
theorem cycle_sample_rest (h : cycle p d s = .next t) (hr : s.stimulus.rst = false) (hs : s.slot ≠ .sample) :
    t.smpA = s.smpA ∧ t.smpB = s.smpB := by
  by_cases hi : s.st = .idle
  · obtain ⟨v, u, hu, rfl⟩ := idle_cycle h hr hi
    exact hu.sample
  · obtain ⟨-, -, -, -, -, ha, hb, -⟩ := seqView_eq (busy_cycle_view h hr hi)
    obtain ⟨ha', hb'⟩ := (slotCycle_sequence p d s).sample hs
    exact ⟨ha.trans ha', hb.trans hb'⟩

end

/-- Settles O37: in the sample slot the cycle waits or takes the pair, and outside it `cycle_draws` and
`cycle_sample_rest` say that the draw goes nowhere. -/
theorem sampleHandshake : Obligations.SampleHandshake := by
  intro p d s t hr hc
  refine ⟨fun hst hsub hv => ?_, fun hst hsub hv => ?_, fun hno d' t' hc' => ?_⟩
  · have hslot := State.slot_of_sample hst hsub
    rw [busy_cycle_view hc hr (by simp [hst]), cycle_events hc hr]
    simp [State.sequence, State.sampleCycle, State.cycleEvents, hslot, hv]
  · have hslot := State.slot_of_sample hst hsub
    have hseq : s.sequence p d = (s.takeSample p d).enter .capRead 1 0 s.iter := by
      simp [State.sequence, hslot, State.sampleCycle, hv, State.advance, hst, State.advanceRead, hsub]
    obtain ⟨htst, -, htiter, htsub, -, ha, hb, -, -, -, -, -, -, hcount, -⟩ :=
      seqView_eq (hseq ▸ busy_cycle_view hc hr (by simp [hst]))
    rw [cycle_events hc hr, ha, hb]
    refine ⟨rawSample_toNat p.adcW d.smpA, rawSample_toNat p.adcW d.smpB, ?_, htst, htsub, htiter, hcount⟩
    simp [State.cycleEvents, hslot, hv]
  · have hslot : s.slot ≠ .sample := fun h => hno (State.slot_sample h)
    obtain ⟨hview, hmem, hev⟩ := cycle_draws hc hc' hslot
    exact ⟨hview, hmem, hev, cycle_sample_rest hc hr hslot⟩

end Sys2Proof.Machine

/-! PROOFS. The frame (spec/20_memory.md R81 to R89): where each byte of an iteration stands, and what the frame
memory holds after the readout loop. -/

namespace Sys2Proof.Machine

/-! ### Offsets and addresses -/

theorem frameOffset_lt (lane : Lane) {i : Nat} (hi : i < 640) : frameOffset lane i < 2560 := by
  cases lane <;> simp only [frameOffset, Config.ch2Base] <;> omega

/-- Two write slots with the same offset are the same (R81). -/
theorem frameOffset_inj {lane lane' : Lane} {i i' : Nat} (hi : i < 640) (hi' : i' < 640)
    (h : frameOffset lane i = frameOffset lane' i') : lane = lane' ∧ i = i' := by
  cases lane <;> cases lane'
  all_goals
    simp only [frameOffset, Config.ch2Base, reduceCtorEq, true_and, false_and] at h ⊢
    omega

/-- The write slot of an offset: channel by half of the frame, high or low byte by parity (R81). -/
theorem exists_frameOffset {off : Nat} (h : off < 2560) : ∃ lane i, i < 640 ∧ frameOffset lane i = off := by
  rcases Nat.lt_or_ge off 1280 with hch | hch <;> rcases Nat.mod_two_eq_zero_or_one off with hpar | hpar
  · exact ⟨.aHigh, off / 2, by omega, by simp only [frameOffset]; omega⟩
  · exact ⟨.aLow, off / 2, by omega, by simp only [frameOffset]; omega⟩
  · exact ⟨.bHigh, (off - 1280) / 2, by omega, by simp only [frameOffset, Config.ch2Base]; omega⟩
  · exact ⟨.bLow, (off - 1280) / 2, by omega, by simp only [frameOffset, Config.ch2Base]; omega⟩

/-- Settles O42. -/
theorem everyFrameOffsetIsWrittenOnce : Obligations.EveryFrameOffsetIsWrittenOnce := by
  intro off hoff
  obtain ⟨lane, i, hi, rfl⟩ := exists_frameOffset hoff
  exact ⟨lane, i, hi, rfl, fun lane' i' hi' h => frameOffset_inj hi' hi h⟩

/-- The sum of R83 is exact below a base that a capture accepts. -/
theorem frameAddr_toNat {base : Word} {off : Nat} (hb : base.toNat ≤ 0xFFFFF600) (ho : off < 2560) :
    (base + BitVec.ofNat 32 off).toNat = base.toNat + off := by
  rw [BitVec.toNat_add, BitVec.toNat_ofNat]
  omega

/-- Two write slots with the same address are the same, whatever the base is. -/
theorem frameAddr_inj {base : Word} {lane lane' : Lane} {i i' : Nat} (hi : i < 640) (hi' : i' < 640)
    (h : base + BitVec.ofNat 32 (frameOffset lane i) = base + BitVec.ofNat 32 (frameOffset lane' i')) :
    lane = lane' ∧ i = i' := by
  have hlt := frameOffset_lt lane hi
  have hlt' := frameOffset_lt lane' hi'
  have hoff : BitVec.ofNat 32 (frameOffset lane i) = BitVec.ofNat 32 (frameOffset lane' i') := by
    simpa using h
  have hmod : frameOffset lane i % 2 ^ 32 = frameOffset lane' i' % 2 ^ 32 := by
    simpa using congrArg BitVec.toNat hoff
  exact frameOffset_inj hi hi' (by omega)

/-- Only an accepted CAPTURE leads out of IDLE to a sequence, and it latches a base that passed the check of R262. -/
theorem execCapture_base {s t : State} (hi : s.st = .idle) (h : exec .capture s = .next t) (ht : t.st ≠ .idle) :
    t.baseL.toNat ≤ 0xFFFFF600 := by
  have hb : s.busy = false := State.busy_eq_false.2 hi
  change execCapture s = .next t at h
  rw [execCapture_eq, hb] at h
  obtain rfl := Host.Outcome.next.inj h
  cases hbad : s.lenBad || s.addrBad with
  | true => simp [hbad, hi] at ht
  | false =>
    have ha : s.addrBad = false := (Bool.or_eq_false_iff.1 hbad).2
    simpa [hbad, State.addrBad, BitVec.le_def] using ha

/-- Settles O41. -/
theorem frameAddressesNeverWrap : Obligations.FrameAddressesNeverWrap := by
  refine ⟨fun base off hb ho => ⟨frameAddr_toNat hb ho, by omega⟩, fun s lane hb hi => ?_,
    fun s t hi h ht => execCapture_base hi h ht⟩
  have hlt := frameOffset_lt lane hi
  exact ⟨hlt, frameAddr_toNat hb hlt⟩

/-! ### The bytes of one iteration -/

section
variable {base : Word} {i : Nat} {a b : Half} {m : Memory} {x : Addr}

/-- Away from the addresses of its four lanes an iteration changes nothing (R87). -/
theorem write4_read_other (h : ∀ lane, x ≠ base + BitVec.ofNat 32 (frameOffset lane i)) :
    Memory.read (write4 base i a b m) x = Memory.read m x := by
  simp [write4, Memory.read_write_other, h]

/-- Each lane's byte stands at its address after an iteration: the lanes after it write elsewhere (R149). -/
theorem write4_read_lane (hi : i < 640) (lane : Lane) :
    Memory.read (write4 base i a b m) (base + BitVec.ofNat 32 (frameOffset lane i)) = some (laneByte lane a b) := by
  have hne : ∀ {l l' : Lane}, l ≠ l' →
      base + BitVec.ofNat 32 (frameOffset l i) ≠ base + BitVec.ofNat 32 (frameOffset l' i) :=
    fun hl heq => hl (frameAddr_inj hi hi heq).1
  simp only [write4, List.foldl_cons, List.foldl_nil]
  cases lane <;> simp [Memory.read_write_same, Memory.read_write_other, hne]

/-! ### The frame after the readout loop -/

/-- Away from the addresses of its iterations the readout loop changes nothing (R87). -/
theorem writeFrameFrom_read_other {answers : List (Half × Half)}
    (h : ∀ lane j, i ≤ j → j < i + answers.length → x ≠ base + BitVec.ofNat 32 (frameOffset lane j)) :
    Memory.read (writeFrameFrom base i answers m) x = Memory.read m x := by
  induction answers generalizing i m with
  | nil => rfl
  | cons ab rest ih =>
    rw [List.length_cons] at h
    rw [writeFrameFrom, ih fun lane j hj hlt => h lane j (by omega) (by omega),
      write4_read_other fun lane => h lane i (Nat.le_refl i) (by omega)]

/-- After the readout loop each answer's bytes stand at their addresses: no later iteration writes there (R81, R89).
-/
theorem writeFrameFrom_read_lane {answers : List (Half × Half)} {j : Nat} (lane : Lane)
    (hlen : i + answers.length ≤ 640) (h : answers[j]? = some (a, b)) :
    Memory.read (writeFrameFrom base i answers m) (base + BitVec.ofNat 32 (frameOffset lane (i + j))) =
      some (laneByte lane a b) := by
  induction answers generalizing i j m with
  | nil => simp at h
  | cons ab rest ih =>
    rw [List.length_cons] at hlen
    rw [writeFrameFrom]
    cases j with
    | zero =>
      obtain rfl : ab = (a, b) := by simpa using h
      rw [writeFrameFrom_read_other]
      · exact write4_read_lane (by omega) lane
      · intro lane' j hj hlt heq
        have hsame := (frameAddr_inj (by omega) (by omega) heq).2
        omega
    | succ j =>
      rw [show i + (j + 1) = i + 1 + j by omega]
      exact ih (by omega) (by simpa using h)

end

/-- Settles O43: the four addresses of an answer are those of its lanes, and no lane's address is outside the frame.
-/
theorem frameHoldsThePackedSamples : Obligations.FrameHoldsThePackedSamples := by
  intro base answers m hb hlen
  refine ⟨fun i a b hab => ?_, fun x hx => writeFrameFrom_read_other fun lane j _ hj heq => ?_⟩
  · have hread := fun lane => writeFrameFrom_read_lane (base := base) (i := 0) (m := m) lane (by omega) hab
    simp only [Nat.zero_add] at hread
    refine ⟨hread .aHigh, hread .aLow, hread .bHigh, ?_⟩
    rw [show 1281 + 2 * i = frameOffset .bLow i by simp only [frameOffset, Config.ch2Base]; omega]
    exact hread .bLow
  · have hlt := frameOffset_lt lane (i := j) (by omega)
    rw [heq, frameAddr_toNat hb hlt] at hx
    omega

end Sys2Proof.Machine

/-! PROOFS. Runs of the primitives (spec/40_primitives.md R142, R143, R146, R149, R150): each says where undisturbed
cycles lead from the start of a primitive and what they show. `State.placed` names the beginning of a slot, and
`Reaches.iterate_then` is the law of a loop. -/

namespace Sys2Proof.Machine

/-! ### The beginning of a slot -/

/-- `s` at the first cycle of a slot, with PULSE_COUNT at `c`. -/
def State.placed (s : State) (st : Fsm) (sub pidx iter : Nat) (c : Word) : State :=
  { s with st := st, sub := sub, pidx := pidx, iter := iter, tcnt := 0, pulseCount := c }

section
variable (s : State) (st : Fsm) (sub pidx iter : Nat) (c : Word)

@[simp] theorem State.placed_st : (s.placed st sub pidx iter c).st = st := rfl
@[simp] theorem State.placed_sub : (s.placed st sub pidx iter c).sub = sub := rfl
@[simp] theorem State.placed_pidx : (s.placed st sub pidx iter c).pidx = pidx := rfl
@[simp] theorem State.placed_iter : (s.placed st sub pidx iter c).iter = iter := rfl
@[simp] theorem State.placed_tcnt : (s.placed st sub pidx iter c).tcnt = 0 := rfl
@[simp] theorem State.placed_slot : (s.placed st sub pidx iter c).slot = slotAt st sub := rfl
@[simp] theorem State.placed_mem : (s.placed st sub pidx iter c).mem = s.mem := rfl

/-- Beginning a slot places the state there, and counts an edge where the slot holds CLOCK high. -/
theorem State.enter_eq_placed :
    s.enter st sub pidx iter =
      s.placed st sub pidx iter (if (slotAt st sub).startsHigh then s.pulseCount + 1#32 else s.pulseCount) := rfl

end

section
variable {p : Params} {d : Nat → Draws} {s : State} {k : Nat}

/-! ### Loops -/

/-- A loop of `m + 1` rounds, the last of which leads to `u` and shows `e` after its own events. -/
theorem Reaches.iterate_then {st : Nat → State} {len : Nat → Nat} {ev : Nat → List Event} {m : Nat} {u : State}
    {e : List Event}
    (hround : ∀ j, j < m → Reaches p d (len j) (k + ((List.range j).map len).sum) (st j) (st (j + 1)) (ev j))
    (hlast : Reaches p d (len m) (k + ((List.range m).map len).sum) (st m) u (ev m ++ e)) :
    Reaches p d ((List.range (m + 1)).map len).sum k (st 0) u ((List.range (m + 1)).flatMap ev ++ e) := by
  have hrounds : ∀ j, j ≤ m →
      Reaches p d ((List.range j).map len).sum k (st 0) (st j) ((List.range j).flatMap ev) := by
    intro j hj
    induction j with
    | zero => exact Reaches.zero
    | succ j ih => simpa [List.range_succ] using (ih (by omega)).comp (hround j hj)
  simpa [List.range_succ] using (hrounds m (Nat.le_refl m)).comp hlast

/-! ### The two pulses -/

theorem State.tcnt_advance (hi : s.st ≠ .idle) : s.advance.tcnt = 0 := (nextEntry_advance hi).tcnt

/-- CLKPULSE (R142): two phases, from slot 1 of a state that has them. -/
theorem Reaches.clkPulse (hst : s.st = .flushA ∨ s.st = .flushB ∨ s.st = .capProp ∨ s.st = .capRead) (hsub : s.sub = 1)
    (h0 : s.tcnt = 0) (k : Nat) :
    Reaches p d (2 * p.tHalf) k s s.advance.advance (clkPulseTrace ++ s.advance.endEvents) := by
  have hpos : s.slot = .phase true false (.clk true) ∧ s.endEvents = [] ∧
      s.advance.slot = .phase false false (.clk false) := by
    rcases hst with h | h | h | h <;>
      simp [State.slot, h, hsub, slotAt, clkPulseSlot, capPropSlot, capReadSlot, State.endEvents, State.advance,
        State.advanceFlush, State.advanceProp, State.advanceRead]
  obtain ⟨hhigh, hend, hlow⟩ := hpos
  have hrun := (Reaches.phase (p := p) (d := d) hhigh h0 k).comp
    (Reaches.phase hlow (State.tcnt_advance (State.st_ne_idle_of_phase hhigh)) _)
  rw [hend] at hrun
  rw [Nat.two_mul]
  exact hrun

/-- The slots of an SI pulse are the same in the three states that have one. -/
theorem slotAt_si {q : Fsm} (hq : q = .flushSi ∨ q = .capSiStart ∨ q = .capSiStop) (n : Nat) :
    slotAt q n = siPulseSlot n := by
  rcases hq with rfl | rfl | rfl <;> rfl

/-- One phase of an SI pulse, after which no event but its own is shown. -/
theorem Reaches.siPhase {c v : Bool} {e : Event} (hst : s.st = .flushSi ∨ s.st = .capSiStart ∨ s.st = .capSiStop)
    (hslot : siPulseSlot s.sub = .phase c v e) (h0 : s.tcnt = 0) (k : Nat) :
    Reaches p d p.tHalf k s s.advance [e] := by
  have hend : s.endEvents = [] := by
    unfold State.endEvents
    rcases hst with h | h | h <;> rw [h]
  rw [← slotAt_si hst] at hslot
  exact hend ▸ Reaches.phase hslot h0 k

/-- The first three phases of an SI pulse lead to the next (R174). -/
theorem State.advance_si (hst : s.st = .flushSi ∨ s.st = .capSiStart ∨ s.st = .capSiStop) (hsub : s.sub < 3) :
    s.advance = s.placed s.st (s.sub + 1) 0 0
      (if (siPulseSlot (s.sub + 1)).startsHigh then s.pulseCount + 1#32 else s.pulseCount) := by
  rw [← slotAt_si hst, ← State.enter_eq_placed]
  rcases hst with h | h | h <;> simp [State.advance, h, State.advanceSi, hsub]

/-- The phases of an SI pulse before its last lead to the next of the same pulse. -/
theorem Reaches.siPhase_next {c v : Bool} {e : Event}
    (hst : s.st = .flushSi ∨ s.st = .capSiStart ∨ s.st = .capSiStop) (hsub : s.sub < 3)
    (hslot : siPulseSlot s.sub = .phase c v e) (h0 : s.tcnt = 0) (k : Nat) :
    Reaches p d p.tHalf k s (s.placed s.st (s.sub + 1) 0 0
      (if (siPulseSlot (s.sub + 1)).startsHigh then s.pulseCount + 1#32 else s.pulseCount)) [e] := by
  rw [← State.advance_si hst hsub]
  exact Reaches.siPhase hst hslot h0 k

/-- SIPULSE (R143): four phases, of which the second counts an edge, and then what follows the marker. -/
theorem Reaches.siPulse (hst : s.st = .flushSi ∨ s.st = .capSiStart ∨ s.st = .capSiStop) (hsub : s.sub = 0)
    (h0 : s.tcnt = 0) (k : Nat) :
    Reaches p d (4 * p.tHalf) k s (s.placed s.st 3 0 0 (s.pulseCount + 1#32)).advance siPulseTrace := by
  have hfirst : ∀ k, Reaches p d p.tHalf k s (s.placed s.st 1 0 0 (s.pulseCount + 1#32)) [.si true] := by
    have h := Reaches.siPhase_next (p := p) (d := d) hst (by omega) (by rw [hsub]; rfl) h0
    rw [hsub] at h
    exact h
  have hsecond : ∀ k c, Reaches p d p.tHalf k (s.placed s.st 1 0 0 c) (s.placed s.st 2 0 0 c) [.clk true] :=
    fun k c => Reaches.siPhase_next (s := s.placed s.st 1 0 0 c) hst (by simp) rfl rfl k
  have hthird : ∀ k c, Reaches p d p.tHalf k (s.placed s.st 2 0 0 c) (s.placed s.st 3 0 0 c) [.clk false] :=
    fun k c => Reaches.siPhase_next (s := s.placed s.st 2 0 0 c) hst (by simp) rfl rfl k
  have hlen : 4 * p.tHalf = p.tHalf + p.tHalf + p.tHalf + p.tHalf := by omega
  rw [hlen]
  exact (((hfirst k).comp (hsecond _ _)).comp (hthird _ _)).comp
    (Reaches.siPhase (s := s.placed s.st 3 0 0 (s.pulseCount + 1#32)) hst rfl rfl _)

/-! ### The byte writes -/

/-- The end of a slot of CAP_READ that is not the last begins the next of the same iteration (R196). -/
theorem State.advance_readSlot (hst : s.st = .capRead) (hsub : s.sub < 6) :
    s.advance = s.enter .capRead (s.sub + 1) 0 s.iter := by
  simp [State.advance, hst, State.advanceRead, hsub]

/-- The last slot of an iteration that is not the last leads to the sample of the next (R196). -/
theorem State.advance_readIter (hst : s.st = .capRead) (hsub : s.sub = 6) (hi : s.iter < 639) :
    s.advance = s.enter .capRead 0 0 (s.iter + 1) := by
  have hlt : s.iter + 1 < Config.readIters := by
    show s.iter + 1 < 640
    omega
  simp [State.advance, hst, State.advanceRead, hsub, hlt]

/-- The last slot of the last iteration ends the capture (R197). -/
theorem State.advance_readEnd (hst : s.st = .capRead) (hsub : s.sub = 6) (hi : s.iter = 639) :
    s.advance = (s.countFrame).enter .idle 0 0 0 := by
  simp [State.advance, hst, State.advanceRead, hsub, hi, State.finish]

/-- The events at the end of a write slot: `Done` after the last of the last iteration (R197). -/
theorem State.endEvents_read (hst : s.st = .capRead) (hi : s.iter < 640) :
    s.endEvents = if s.sub = 6 ∧ s.iter = 639 then [.done] else [] := by
  have hlast : (¬ s.iter + 1 < Config.readIters) ↔ s.iter = 639 := by
    show (¬ s.iter + 1 < 640) ↔ _
    omega
  simp only [State.endEvents, hst, hlast]

/-- One byte write (R149). -/
theorem Reaches.write {lane : Lane} (hslot : s.slot = .write lane) (k : Nat) :
    Reaches p d 1 k s (s.storeLane lane).advance (.wr (s.laneAddr lane) (s.laneData lane) :: s.endEvents) := by
  have hrun := Reaches.one (p := p) (d := d) (k := k) (State.st_ne_idle_of_slot (s := s) (by simp [hslot]))
  simpa [State.sequence, State.writeCycle, State.cycleEvents, hslot] using hrun

/-- The three write slots before the last lead to the next of the same iteration. -/
theorem Reaches.write_next {lane : Lane} (hslot : s.slot = .write lane) (hsub : s.sub < 6) (hi : s.iter < 640)
    (k : Nat) :
    Reaches p d 1 k s ((s.storeLane lane).enter .capRead (s.sub + 1) 0 s.iter)
      [.wr (s.laneAddr lane) (s.laneData lane)] := by
  have hst := State.slot_write hslot
  have hrun := Reaches.write (p := p) (d := d) hslot k
  rwa [State.advance_readSlot (s := s.storeLane lane) hst hsub, State.endEvents_read hst hi,
    if_neg fun h => hsub.ne h.1] at hrun

/-- `s` in its fourth write slot with the four bytes of the iteration stored. -/
def State.stored4 (s : State) : State :=
  { s with st := .capRead, sub := 6, pidx := 0, tcnt := 0, mem := write4 s.baseL s.iter s.smpA s.smpB s.mem }

/-- WRITE4 (R149): four cycles store the iteration's bytes in order. -/
theorem Reaches.write4 (hst : s.st = .capRead) (hsub : s.sub = 3) (hi : s.iter < 640) (k : Nat) :
    Reaches p d 4 k s s.stored4.advance
      (write4Trace s.baseL s.iter s.smpA s.smpB ++ if s.iter = 639 then [.done] else []) := by
  have hslot : s.slot = .write .aHigh := by rw [State.slot, hst, hsub]; rfl
  have h1 := Reaches.write_next (p := p) (d := d) hslot (by omega) hi k
  rw [hsub] at h1
  have h2 := h1.comp (Reaches.write_next (lane := .aLow) rfl (by simp) (by simpa) _)
  have h3 := h2.comp (Reaches.write_next (lane := .bHigh) rfl (by simp) (by simpa) _)
  have h4 := h3.comp (Reaches.write (lane := .bLow) rfl _)
  rw [State.endEvents_read rfl (by simpa)] at h4
  simp only [State.enter_sub, State.enter_iter, true_and] at h4
  exact h4

/-! ### The sample handshake -/

/-- The sampler's latency: the block stays in the sample slot and shows nothing (R146). -/
theorem Reaches.silent (hslot : s.slot = .sample) {l : Nat} (h : ∀ j, j < l → (d (k + j)).smpValid = false) :
    Reaches p d l k s s [] := by
  induction l with
  | zero => exact Reaches.zero
  | succ l ih =>
    have hv := h l (Nat.lt_succ_self l)
    have hone := Reaches.one (p := p) (d := d) (k := k + l) (State.st_ne_idle_of_slot (s := s) (by simp [hslot]))
    rw [show s.sequence p (d (k + l)) = s by simp [State.sequence, hslot, State.sampleCycle, hv],
      show s.cycleEvents p (d (k + l)) = [] by simp [State.cycleEvents, hslot, hv]] at hone
    exact (ih fun j hj => h j (by omega)).comp hone

/-- The sampler's answer: the pair is taken, and CLOCK high of the same iteration begins (R146, R196). -/
theorem Reaches.answered (hslot : s.slot = .sample) (hv : (d k).smpValid = true) :
    Reaches p d 1 k s ((s.takeSample p (d k)).enter .capRead 1 0 s.iter)
      [.smp (rawSample p.adcW (d k).smpA) (rawSample p.adcW (d k).smpB)] := by
  obtain ⟨hst, hsub⟩ := State.slot_sample hslot
  have hone := Reaches.one (p := p) (d := d) (k := k) (State.st_ne_idle_of_slot (s := s) (by simp [hslot]))
  rw [show s.sequence p (d k) = (s.takeSample p (d k)).enter .capRead 1 0 s.iter by
      simp [State.sequence, hslot, State.sampleCycle, hv, State.advance_readSlot (s := s.takeSample p (d k)) hst, hsub],
    show s.cycleEvents p (d k) = [.smp (rawSample p.adcW (d k).smpA) (rawSample p.adcW (d k).smpB)] by
      simp [State.cycleEvents, hslot, hv]] at hone
  exact hone

/-! ### The exposure wait -/

/-- `s` with the exposure timer at `u` microseconds and `c` cycles of the current one. -/
def State.timer (s : State) (u : Word) (c : Nat) : State := { s with usLeft := u, presc := c }

/-- Within a microsecond of the wait only `presc` counts (R150). -/
theorem Reaches.wait_held (hslot : s.slot = .wait) (u : Word) {c : Nat} (hc : c < p.clkPerUs) :
    Reaches p d c k (s.timer u 0) (s.timer u c) [] := by
  induction c with
  | zero => exact Reaches.zero
  | succ c ih =>
    have hw : (s.timer u c).slot = .wait := hslot
    have hpresc : (s.timer u c).presc = c := rfl
    have hone := Reaches.one (p := p) (d := d) (k := k + c) (State.st_ne_idle_of_slot (s := s.timer u c) (by simp [hw]))
    rw [show (s.timer u c).sequence p (d (k + c)) = s.timer u (c + 1) by
        simp only [State.sequence, hw, State.waitCycle, hpresc, if_neg hc.ne]; rfl,
      show (s.timer u c).cycleEvents p (d (k + c)) = [] by simp only [State.cycleEvents, hw]] at hone
    exact (ih (by omega)).comp hone

/-- One microsecond of the wait: the timer counts down, and at its end the stop marker begins (R150, R194). -/
theorem Reaches.microsecond (hslot : s.slot = .wait) (u : Word) (k : Nat) :
    Reaches p d p.clkPerUs k (s.timer u 0)
      (if u = 1#32 then (s.timer 0#32 0).enter .capSiStop 0 0 0 else s.timer (u - 1#32) 0) [] := by
  obtain ⟨c, hc⟩ : ∃ c, p.clkPerUs = c + 1 := Nat.exists_eq_add_of_le' p.clkPerUs_pos
  have hw : (s.timer u c).slot = .wait := hslot
  have hst : s.st = .capExpo := State.slot_wait hslot
  have hpresc : (s.timer u c).presc = c := rfl
  have hone := Reaches.one (p := p) (d := d) (k := k + c) (State.st_ne_idle_of_slot (s := s.timer u c) (by simp [hw]))
  rw [show (s.timer u c).sequence p (d (k + c)) =
      if u = 1#32 then (s.timer 0#32 0).enter .capSiStop 0 0 0 else s.timer (u - 1#32) 0 by
        simp only [State.sequence, hw, State.waitCycle, hpresc, if_pos hc.symm]
        by_cases hu : u = 1#32
        · subst hu
          simp [State.timer, State.countUs, State.advance, hst]
        · simp [State.timer, State.countUs, hu],
    show (s.timer u c).cycleEvents p (d (k + c)) = [] by simp only [State.cycleEvents, hw]] at hone
  rw [hc]
  exact (Reaches.wait_held hslot u (by omega)).comp hone

/-- WAITUS (R150): `n` microseconds take `n * CLK_PER_US` cycles, and then the stop marker begins. -/
theorem Reaches.wait (hslot : s.slot = .wait) {n : Nat} {u : Word} (hn : u.toNat = n + 1) (k : Nat) :
    Reaches p d ((n + 1) * p.clkPerUs) k (s.timer u 0) ((s.timer 0#32 0).enter .capSiStop 0 0 0) [] := by
  induction n generalizing u k with
  | zero =>
    obtain rfl : u = 1#32 := BitVec.eq_of_toNat_eq hn
    simpa using Reaches.microsecond (p := p) (d := d) hslot 1#32 k
  | succ n ih =>
    have hus := Reaches.microsecond (p := p) (d := d) hslot u k
    rw [if_neg (by rintro rfl; simp at hn)] at hus
    rw [show (n + 1 + 1) * p.clkPerUs = p.clkPerUs + (n + 1) * p.clkPerUs by ring]
    exact hus.comp (ih (by bv_omega) _)

end

/-- Settles O40: `Reaches.write4`, and then the "next" entry of the last write slot. -/
theorem writeFourStoresTheIteration : Obligations.WriteFourStoresTheIteration := by
  intro p d s hst hsub hp hi
  obtain ⟨⟨t, hrun, ⟨hview, -, hmem⟩, -⟩, -⟩ := Reaches.write4 (p := p) (d := d) hst hsub hi s.tick s (.refl s) hp rfl
  refine ⟨t, hrun, hmem.trans (advance_mem _), ?_⟩
  rcases Nat.lt_or_ge s.iter 639 with hlt | hge
  · rw [State.advance_readIter (s := s.stored4) rfl rfl hlt] at hview
    obtain ⟨htst, -, htiter, htsub, -, -, -, -, -, -, -, -, -, hpulse, hframe, -⟩ := seqView_eq hview
    exact ⟨fun _ => ⟨htst, htsub, htiter, hframe⟩, fun h => absurd h hlt.ne, hpulse⟩
  · have hlast : s.iter = 639 := by omega
    rw [State.advance_readEnd (s := s.stored4) rfl rfl hlast] at hview
    obtain ⟨htst, -, htiter, htsub, -, -, -, -, -, -, -, -, -, hpulse, hframe, -⟩ := seqView_eq hview
    exact ⟨fun h => absurd hlast h.ne, fun _ => ⟨htst, htsub, htiter, hframe⟩, hpulse⟩

end Sys2Proof.Machine

/-! PROOFS. A whole capture (spec/42_capture.md R190 to R201) from its parts: the start marker, the propagation
window, the exposure, the stop marker and the readout loop. `Reaches.capture` is its law, `capture_run` the run from
the accepted command on, and two runs with the same configuration and answers show the same. -/

namespace Sys2Proof.Machine

/-! ### The propagation window -/

/-- Whether the trigger strobe fires before propagation pulse `j` (R193). -/
def strobes (en : Bool) (index j : Nat) : Bool := en && decide (index = j)

/-- The events of propagation pulse `j`: `Trig` where the strobe fires before it, then the pulse (R145). -/
def propPulseTrace (en : Bool) (index j : Nat) : List Event :=
  (if strobes en index j then [.trig] else []) ++ clkPulseTrace

/-- The cycles of propagation pulse `j`: that of the strobe, then those of the pulse (R193). -/
def propPulseCycles (p : Params) (en : Bool) (index j : Nat) : Nat :=
  (if strobes en index j then 1 else 0) + 2 * p.tHalf

theorem pulsesTrace_succ (n : Nat) : pulsesTrace (n + 1) = pulsesTrace n ++ clkPulseTrace := by
  simp [pulsesTrace, List.replicate_succ']

theorem pulsesTrace_zero : pulsesTrace 0 = [] := rfl

/-- The trace of the window, pulse by pulse (R145, R191). -/
theorem flatMap_propPulseTrace (en : Bool) (index n : Nat) :
    (List.range n).flatMap (propPulseTrace en index) =
      if en = true ∧ index < n then pulsesTrace index ++ [.trig] ++ pulsesTrace (n - index) else pulsesTrace n := by
  induction n with
  | zero => simp [pulsesTrace_zero]
  | succ n ih =>
    rw [List.range_succ, List.flatMap_append, ih, List.flatMap_singleton, propPulseTrace]
    rcases Nat.lt_trichotomy index n with hlt | rfl | hgt
    · have hsub : n + 1 - index = n - index + 1 := by omega
      cases en <;> simp [strobes, hlt, hlt.ne, Nat.lt_succ_of_lt hlt, hsub, pulsesTrace_succ]
    · cases en <;> simp [strobes, pulsesTrace_succ, pulsesTrace_zero]
    · have hle : ¬ index < n + 1 := by omega
      cases en <;> simp [strobes, hle, hgt.ne', Nat.not_lt_of_gt hgt, pulsesTrace_succ]

/-- The cycles of the window, pulse by pulse. -/
theorem sum_propPulseCycles (p : Params) (en : Bool) (index n : Nat) :
    ((List.range n).map (propPulseCycles p en index)).sum =
      (if en = true ∧ index < n then 1 else 0) + n * (2 * p.tHalf) := by
  induction n with
  | zero => simp
  | succ n ih =>
    have hstep : (if en = true ∧ index < n then 1 else 0) + (if strobes en index n then 1 else 0) =
        if en = true ∧ index < n + 1 then 1 else 0 := by
      rcases Nat.lt_trichotomy index n with hlt | rfl | hgt
      · simp [strobes, hlt, hlt.ne, Nat.lt_succ_of_lt hlt]
      · simp [strobes]
      · have hle : ¬ index < n + 1 := by omega
        simp [strobes, hle, hgt.ne', Nat.not_lt_of_gt hgt]
    rw [List.range_succ, List.map_append, List.sum_append, ih, List.map_singleton, List.sum_singleton, ← hstep,
      Nat.succ_mul n, propPulseCycles]
    omega

section
variable {p : Params} {d : Nat → Draws} {s : State}

/-- `s` where propagation pulse `j` begins: at the trigger slot if the strobe fires before it, else at CLOCK high,
with `c` edges counted before the pulse (R193). -/
def State.propPulse (s : State) (j : Nat) (c : Word) : State :=
  if strobes s.tenL s.tidxL.toNat j then s.placed .capProp 0 j 0 c else s.placed .capProp 1 j 0 (c + 1#32)

theorem State.beginProp_placed (st : Fsm) (sub pidx iter : Nat) (c : Word) (j : Nat) :
    (s.placed st sub pidx iter c).beginProp j = s.propPulse j c := by
  by_cases h : s.tenL = true ∧ s.tidxL.toNat = j
  · have hs : strobes s.tenL s.tidxL.toNat j = true := by simp [strobes, h.1, h.2]
    rw [State.propPulse, if_pos hs]
    exact if_pos h
  · have hs : ¬ strobes s.tenL s.tidxL.toNat j = true := by simpa [strobes] using h
    rw [State.propPulse, if_neg hs]
    exact if_neg h

/-- The trigger slot takes one cycle and leads to CLOCK high of its pulse (R151, R193). -/
theorem Reaches.strobe (j : Nat) (c : Word) (k : Nat) :
    Reaches p d 1 k (s.placed .capProp 0 j 0 c) (s.placed .capProp 1 j 0 (c + 1#32)) [.trig] := by
  have hslot : (s.placed .capProp 0 j 0 c).slot = .trig := rfl
  have hone := Reaches.one (p := p) (d := d) (k := k) (s := s.placed .capProp 0 j 0 c) (by simp)
  rw [show (s.placed .capProp 0 j 0 c).sequence p (d k) = s.placed .capProp 1 j 0 (c + 1#32) from
      State.advance_trig hslot] at hone
  exact hone

/-- Where the exposure begins after the window, with `c` edges counted (R194). -/
def State.exposureStart (s : State) (c : Word) : State :=
  if s.expL = 0#32 then s.placed .capSiStop 0 0 0 c else (s.timer s.expL 0).placed .capExpo 0 0 0 c

theorem State.beginExposure_placed (st : Fsm) (sub pidx iter : Nat) (c : Word) :
    (s.placed st sub pidx iter c).beginExposure = s.exposureStart c := rfl

/-- The end of the last propagation pulse begins the exposure (R194). -/
theorem State.advance_propEnd (hst : s.st = .capProp) (hsub : s.sub = 2) (hp : ¬ s.pidx + 1 < Config.propPulses) :
    s.advance = s.beginExposure := by
  simp [State.advance, hst, State.advanceProp, hsub, hp]

/-- The events at the end of a propagation pulse: `Wait` after the last (R194). -/
theorem State.endEvents_prop (hst : s.st = .capProp) (hsub : s.sub = 2) :
    s.endEvents = if s.pidx + 1 < Config.propPulses then [] else [.wait s.expL] := by
  simp only [State.endEvents, hst, hsub, true_and, ite_not]

/-- One propagation pulse: the strobe where it fires, and then CLKPULSE. -/
theorem Reaches.propPulse (j : Nat) (c : Word) (k : Nat) :
    Reaches p d (propPulseCycles p s.tenL s.tidxL.toNat j) k (s.propPulse j c)
      (s.placed .capProp 2 j 0 (c + 1#32)).advance
      (propPulseTrace s.tenL s.tidxL.toNat j ++ (s.placed .capProp 2 j 0 (c + 1#32)).endEvents) := by
  have hpulse : ∀ k, Reaches p d (2 * p.tHalf) k (s.placed .capProp 1 j 0 (c + 1#32))
      (s.placed .capProp 2 j 0 (c + 1#32)).advance
      (clkPulseTrace ++ (s.placed .capProp 2 j 0 (c + 1#32)).endEvents) :=
    fun k => Reaches.clkPulse (s := s.placed .capProp 1 j 0 (c + 1#32)) (.inr (.inr (.inl rfl))) rfl rfl k
  unfold State.propPulse propPulseCycles propPulseTrace
  split
  · rw [List.append_assoc]
    exact (Reaches.strobe j c k).comp (hpulse _)
  · simpa using hpulse k

/-- A propagation pulse that is not the last leads to the next. -/
theorem Reaches.propPulse_next {j : Nat} (hj : j + 1 < Config.propPulses) (c : Word) (k : Nat) :
    Reaches p d (propPulseCycles p s.tenL s.tidxL.toNat j) k (s.propPulse j c) (s.propPulse (j + 1) (c + 1#32))
      (propPulseTrace s.tenL s.tidxL.toNat j) := by
  have hrun := Reaches.propPulse (p := p) (d := d) (s := s) j c k
  rw [State.advance_propPulse rfl rfl hj, State.beginProp_placed, State.endEvents_prop rfl rfl,
    if_pos (by exact hj), List.append_nil] at hrun
  exact hrun

/-- The last propagation pulse leads to the exposure. -/
theorem Reaches.propPulse_last {j : Nat} (hj : ¬ j + 1 < Config.propPulses) (c : Word) (k : Nat) :
    Reaches p d (propPulseCycles p s.tenL s.tidxL.toNat j) k (s.propPulse j c) (s.exposureStart (c + 1#32))
      (propPulseTrace s.tenL s.tidxL.toNat j ++ [.wait s.expL]) := by
  have hrun := Reaches.propPulse (p := p) (d := d) (s := s) j c k
  rw [State.advance_propEnd rfl rfl hj, State.beginExposure_placed, State.endEvents_prop rfl rfl,
    if_neg (by exact hj)] at hrun
  exact hrun

theorem add_ofNat_succ (c : Word) (j : Nat) : c + BitVec.ofNat 32 j + 1#32 = c + BitVec.ofNat 32 (j + 1) := by
  rw [BitVec.ofNat_add, BitVec.add_assoc]

/-- The propagation window (R145, R193): PROP_PULSES pulses, and the strobe before its own. -/
theorem Reaches.propWindow (c : Word) (k : Nat) :
    Reaches p d (strobeCycles s.tenL s.tidxL + Config.propPulses * (2 * p.tHalf)) k (s.propPulse 0 c)
      (s.exposureStart (c + BitVec.ofNat 32 Config.propPulses)) (propTrace s.tenL s.tidxL.toNat ++ [.wait s.expL]) := by
  have hpulses : ∀ m, m + 1 = Config.propPulses →
      Reaches p d ((List.range (m + 1)).map (propPulseCycles p s.tenL s.tidxL.toNat)).sum k
        (s.propPulse 0 (c + BitVec.ofNat 32 0)) (s.exposureStart (c + BitVec.ofNat 32 (m + 1)))
        ((List.range (m + 1)).flatMap (propPulseTrace s.tenL s.tidxL.toNat) ++ [.wait s.expL]) := by
    intro m hm
    refine Reaches.iterate_then (st := fun j => s.propPulse j (c + BitVec.ofNat 32 j)) (fun j hj => ?_) ?_
    · rw [← add_ofNat_succ]
      exact Reaches.propPulse_next (by omega) _ _
    · rw [← add_ofNat_succ]
      exact Reaches.propPulse_last (by omega) _ _
  have hrun := hpulses 1079 rfl
  rw [sum_propPulseCycles, flatMap_propPulseTrace, BitVec.add_zero] at hrun
  exact hrun

/-! ### The exposure -/

/-- `s` after the exposure: the timer ran out, or was never loaded (R150). -/
def State.exposed (s : State) : State := if s.expL = 0#32 then s else s.timer 0#32 0

/-- The exposure (R150, R194): EXP_L microseconds, skipped with no cycle when there are none, and then the stop
marker. -/
theorem Reaches.exposure (c : Word) (k : Nat) :
    Reaches p d (s.expL.toNat * p.clkPerUs) k (s.exposureStart c) (s.exposed.placed .capSiStop 0 0 0 c) [] := by
  unfold State.exposureStart State.exposed
  by_cases h0 : s.expL = 0#32
  · simpa [h0] using Reaches.zero
  · obtain ⟨n, hn⟩ : ∃ n, s.expL.toNat = n + 1 :=
      Nat.exists_eq_succ_of_ne_zero fun h => h0 (BitVec.eq_of_toNat_eq h)
    rw [if_neg h0, if_neg h0, hn]
    exact Reaches.wait (s := s.placed .capExpo 0 0 0 c) rfl hn k

/-! ### The readout loop -/

/-- `s` after an iteration that was answered `(a, b)`: the pair stands in the sample registers, its four bytes in the
frame (R149, R152). -/
def State.iterated (s : State) (i : Nat) (ab : Half × Half) : State :=
  { s with smpA := ab.1, smpB := ab.2, mem := Machine.write4 s.baseL i ab.1 ab.2 s.mem }

/-- The raw pair the sampler presents in cycle `n` (R146, R147). -/
def rawPair (p : Params) (d : Nat → Draws) (n : Nat) : Half × Half :=
  (rawSample p.adcW (d n).smpA, rawSample p.adcW (d n).smpB)

/-- The pulse of an iteration leads from its answer to its first write slot (R196). -/
theorem Reaches.readPulse {i : Nat} (hi : i < 640) (c : Word) (k : Nat) :
    Reaches p d (2 * p.tHalf) k (s.placed .capRead 1 0 i c) (s.placed .capRead 3 0 i c) clkPulseTrace := by
  have hrun := Reaches.clkPulse (p := p) (d := d) (s := s.placed .capRead 1 0 i c) (.inr (.inr (.inr rfl))) rfl rfl k
  have hlow : (s.placed .capRead 1 0 i c).advance = s.placed .capRead 2 0 i c :=
    State.advance_readSlot rfl (by simp)
  have hwrite : (s.placed .capRead 2 0 i c).advance = s.placed .capRead 3 0 i c :=
    State.advance_readSlot rfl (by simp)
  have hend : (s.placed .capRead 2 0 i c).endEvents = [] := by
    rw [State.endEvents_read rfl hi, if_neg (by simp)]
  rwa [hlow, hwrite, hend, List.append_nil] at hrun

/-- READITER(i) (R152): the sampler's latency, its answer, CLKPULSE and WRITE4. -/
theorem Reaches.readIter {i l k : Nat} (hi : i < 640) (c : Word) (hwait : ∀ j, j < l → (d (k + j)).smpValid = false)
    (hv : (d (k + l)).smpValid = true) :
    Reaches p d (5 + 2 * p.tHalf + l) k (s.placed .capRead 0 0 i c)
      ((s.iterated i (rawPair p d (k + l))).placed .capRead 6 0 i (c + 1#32)).advance
      (readIterTrace s.baseL i (rawPair p d (k + l)) ++ if i = 639 then [.done] else []) := by
  have hsample := (Reaches.silent (p := p) (s := s.placed .capRead 0 0 i c) rfl hwait).comp (Reaches.answered rfl hv)
  have hpulse := Reaches.readPulse (p := p) (d := d) (s := s.takeSample p (d (k + l))) hi (c + 1#32) (k + (l + 1))
  have hwrites := Reaches.write4 (p := p) (d := d) (s := (s.takeSample p (d (k + l))).placed .capRead 3 0 i (c + 1#32))
    rfl rfl hi (k + (l + 1 + 2 * p.tHalf))
  have hrun := (hsample.comp hpulse).comp hwrites
  have hlen : 5 + 2 * p.tHalf + l = l + 1 + 2 * p.tHalf + 4 := by omega
  rw [hlen, readIterTrace, List.append_assoc]
  exact hrun

/-- `s` after the first `m` iterations, where `answers i` is the pair of iteration `i`. -/
def State.readout (s : State) (answers : Nat → Half × Half) : Nat → State
  | 0 => s
  | m + 1 => (s.readout answers m).iterated m (answers m)

/-! The readout loop writes the sample pair and the frame memory and nothing else. -/

theorem State.readout_view (s : State) (answers : Nat → Half × Half) (m : Nat) :
    (s.readout answers m).hostView = s.hostView ∧ (s.readout answers m).baseL = s.baseL ∧
      (s.readout answers m).pulseCount = s.pulseCount ∧ (s.readout answers m).frameCount = s.frameCount ∧
      (s.readout answers m).flushed = s.flushed := by
  induction m with
  | zero => exact ⟨rfl, rfl, rfl, rfl, rfl⟩
  | succ m ih => exact ih

theorem readTraceFrom_concat (base : Word) (i : Nat) (answers : List (Half × Half)) (ab : Half × Half) :
    readTraceFrom base i (answers ++ [ab]) =
      readTraceFrom base i answers ++ readIterTrace base (i + answers.length) ab := by
  induction answers generalizing i with
  | nil => simp [readTraceFrom]
  | cons x rest ih => simp [readTraceFrom, ih, Nat.add_assoc, Nat.add_comm 1]

theorem writeFrameFrom_concat (base : Word) (i : Nat) (answers : List (Half × Half)) (ab : Half × Half) (mem : Memory) :
    writeFrameFrom base i (answers ++ [ab]) mem =
      Machine.write4 base (i + answers.length) ab.1 ab.2 (writeFrameFrom base i answers mem) := by
  induction answers generalizing i mem with
  | nil => rfl
  | cons x rest ih => simp [writeFrameFrom, ih, Nat.add_assoc, Nat.add_comm 1]

/-- The frame memory after `m` iterations (R89). -/
theorem State.readout_mem (s : State) (answers : Nat → Half × Half) (m : Nat) :
    (s.readout answers m).mem = writeFrameFrom s.baseL 0 ((List.range m).map answers) s.mem := by
  induction m with
  | zero => rfl
  | succ m ih =>
    obtain ⟨-, hbase, -⟩ := s.readout_view answers m
    rw [List.range_succ, List.map_append, List.map_singleton, writeFrameFrom_concat, ← ih, List.length_map,
      List.length_range, Nat.zero_add, ← hbase]
    rfl

/-- The trace of the readout loop, iteration by iteration (R196). -/
theorem flatMap_readIterTrace (base : Word) (answers : Nat → Half × Half) (m : Nat) :
    (List.range m).flatMap (fun i => readIterTrace base i (answers i)) =
      readTraceFrom base 0 ((List.range m).map answers) := by
  induction m with
  | zero => rfl
  | succ m ih => simp [List.range_succ, ih, readTraceFrom_concat]

/-- The cycle of an iteration's first request, from those of the iterations before it (R323). -/
theorem requestTick_eq_sum (p : Params) (start : Nat) (lat : Nat → Nat) (i : Nat) :
    requestTick p start lat i = start + ((List.range i).map fun j => 5 + 2 * p.tHalf + lat j).sum := by
  induction i with
  | zero => rfl
  | succ i ih => simp [requestTick, ih, List.range_succ, Nat.add_assoc]

/-- The answers of the readout loop that begins in cycle `start`, in order. -/
def readAnswer (p : Params) (d : Nat → Draws) (start : Nat) (lat : Nat → Nat) (i : Nat) : Half × Half :=
  rawPair p d (requestTick p start lat i + lat i)

theorem answersOf_eq (p : Params) (d : Nat → Draws) (start : Nat) (lat : Nat → Nat) :
    answersOf p d start lat = (List.range Config.readIters).map (readAnswer p d start lat) := rfl

/-- The readout loop (R196, R197): 640 iterations, and then IDLE with one more frame counted. -/
theorem Reaches.readLoop {k : Nat} {lat : Nat → Nat} (h : AnswersAfter p d k lat) (c : Word) :
    Reaches p d ((List.range Config.readIters).map fun j => 5 + 2 * p.tHalf + lat j).sum k (s.placed .capRead 0 0 0 c)
      ((s.readout (readAnswer p d k lat) Config.readIters).countFrame.placed .idle 0 0 0
        (c + BitVec.ofNat 32 Config.readIters))
      (readTraceFrom s.baseL 0 (answersOf p d k lat) ++ [.done]) := by
  have hiter : ∀ i, i < 640 → Reaches p d (5 + 2 * p.tHalf + lat i)
      (k + ((List.range i).map fun j => 5 + 2 * p.tHalf + lat j).sum)
      ((s.readout (readAnswer p d k lat) i).placed .capRead 0 0 i (c + BitVec.ofNat 32 i))
      ((s.readout (readAnswer p d k lat) (i + 1)).placed .capRead 6 0 i (c + BitVec.ofNat 32 (i + 1))).advance
      (readIterTrace s.baseL i (readAnswer p d k lat i) ++ if i = 639 then [.done] else []) := by
    intro i hi
    obtain ⟨hwait, hv⟩ := h i hi
    obtain ⟨-, hbase, -⟩ := s.readout_view (readAnswer p d k lat) i
    rw [← requestTick_eq_sum, ← add_ofNat_succ, ← hbase]
    exact Reaches.readIter hi _ hwait hv
  have hloop : ∀ m, m = 639 →
      Reaches p d ((List.range (m + 1)).map fun j => 5 + 2 * p.tHalf + lat j).sum k
        ((s.readout (readAnswer p d k lat) 0).placed .capRead 0 0 0 (c + BitVec.ofNat 32 0))
        ((s.readout (readAnswer p d k lat) (m + 1)).countFrame.placed .idle 0 0 0 (c + BitVec.ofNat 32 (m + 1)))
        ((List.range (m + 1)).flatMap (fun i => readIterTrace s.baseL i (readAnswer p d k lat i)) ++ [.done]) := by
    intro m hm
    refine Reaches.iterate_then
      (st := fun i => (s.readout (readAnswer p d k lat) i).placed .capRead 0 0 i (c + BitVec.ofNat 32 i))
      (fun i hi => ?_) ?_
    · have hrun := hiter i (by omega)
      rw [State.advance_readIter rfl rfl (by simp; omega), if_neg (by omega), List.append_nil] at hrun
      exact hrun
    · have hrun := hiter m (by omega)
      rw [State.advance_readEnd rfl rfl hm, if_pos hm] at hrun
      exact hrun
  have hrun := hloop 639 rfl
  rw [flatMap_readIterTrace, BitVec.add_zero] at hrun
  exact hrun

/-! ### The whole capture -/

/-- `s`, a state that latched its configuration, at the end of its capture: the exposure is over, the readout loop
is done, one frame and 1722 edges are counted (R197, R198). -/
def State.captured (s : State) (answers : Nat → Half × Half) : State :=
  (s.exposed.readout answers Config.readIters).countFrame.placed .idle 0 0 0 (s.pulseCount + 1722#32)

/-- An SI pulse of a capture, from its first slot (R192, R195). -/
theorem Reaches.siMarker {q : Fsm} (hq : q = .flushSi ∨ q = .capSiStart ∨ q = .capSiStop) (c : Word) (k : Nat) :
    Reaches p d (4 * p.tHalf) k (s.placed q 0 0 0 c) (s.placed q 3 0 0 (c + 1#32)).advance siPulseTrace :=
  Reaches.siPulse (s := s.placed q 0 0 0 c) hq rfl rfl k

/-- From the start marker to the first sample request (R192 to R195, R329). -/
theorem Reaches.captureRequest (c : Word) (k : Nat) :
    Reaches p d (requestOffset p s.expL s.tenL s.tidxL) k (s.placed .capSiStart 0 0 0 c)
      (s.exposed.placed .capRead 0 0 0 (c + 1082#32))
      (siPulseTrace ++ propTrace s.tenL s.tidxL.toNat ++ [.wait s.expL] ++ siPulseTrace) := by
  have hstart : Reaches p d (4 * p.tHalf) k (s.placed .capSiStart 0 0 0 c) (s.propPulse 0 (c + 1#32)) siPulseTrace := by
    have hrun := Reaches.siMarker (p := p) (d := d) (s := s) (.inr (.inl rfl)) c k
    rwa [State.advance_siStart rfl rfl, State.beginProp_placed] at hrun
  have hstop : ∀ (s : State) c k,
      Reaches p d (4 * p.tHalf) k (s.placed .capSiStop 0 0 0 c) (s.placed .capRead 0 0 0 (c + 1#32)) siPulseTrace :=
    fun s c k => Reaches.siMarker (.inr (.inr rfl)) c k
  have hrun := ((hstart.comp (Reaches.propWindow (c + 1#32) _)).comp (Reaches.exposure _ _)).comp (hstop _ _ _)
  have hlen : requestOffset p s.expL s.tenL s.tidxL = 4 * p.tHalf + (strobeCycles s.tenL s.tidxL +
      Config.propPulses * (2 * p.tHalf)) + s.expL.toNat * p.clkPerUs + 4 * p.tHalf := by
    simp only [requestOffset, Config.propPulses]
    omega
  have hcount : c + 1#32 + BitVec.ofNat 32 Config.propPulses + 1#32 = c + 1082#32 := by
    rw [BitVec.add_assoc, BitVec.add_assoc]
    rfl
  rw [hcount, List.append_nil, ← List.append_assoc, ← hlen] at hrun
  exact hrun

theorem State.exposed_view (s : State) :
    s.exposed.baseL = s.baseL ∧ s.exposed.mem = s.mem ∧ s.exposed.hostView = s.hostView ∧
      s.exposed.frameCount = s.frameCount ∧ s.exposed.flushed = s.flushed := by
  unfold State.exposed
  split <;> exact ⟨rfl, rfl, rfl, rfl, rfl⟩

/-- The cycles of a capture are those up to the first request and those of the readout loop (R327). -/
theorem captureCycles_eq (p : Params) (expL : Word) (tenL : Bool) (tidxL : Half) (lat : Nat → Nat) :
    captureCycles p expL tenL tidxL lat =
      requestOffset p expL tenL tidxL + ((List.range Config.readIters).map fun j => 5 + 2 * p.tHalf + lat j).sum := by
  rw [List.sum_map_add, List.map_const', List.sum_replicate, List.length_range]
  simp only [captureCycles, requestOffset, Config.readIters, smul_eq_mul]
  omega

/-- The law of a whole capture: from the start marker on, with the latencies `lat` of the sampler (R191, R327). -/
theorem Reaches.capture {k : Nat} {lat : Nat → Nat}
    (h : AnswersAfter p d (k + requestOffset p s.expL s.tenL s.tidxL) lat) :
    Reaches p d (captureCycles p s.expL s.tenL s.tidxL lat) k (s.placed .capSiStart 0 0 0 s.pulseCount)
      (s.captured (readAnswer p d (k + requestOffset p s.expL s.tenL s.tidxL) lat))
      (captureTrace s.expL s.baseL s.tenL s.tidxL
        (answersOf p d (k + requestOffset p s.expL s.tenL s.tidxL) lat)) := by
  have hloop := Reaches.readLoop (s := s.exposed) h (s.pulseCount + 1082#32)
  have hrun := (Reaches.captureRequest s.pulseCount k).comp hloop
  have hcount : s.pulseCount + 1082#32 + BitVec.ofNat 32 Config.readIters = s.pulseCount + 1722#32 := by
    rw [BitVec.add_assoc]
    rfl
  obtain ⟨hbase, -⟩ := s.exposed_view
  rw [hcount, hbase, ← captureCycles_eq, ← List.append_assoc] at hrun
  exact hrun

/-- The frame memory at the end of a capture (R89, R198). -/
theorem State.captured_mem (s : State) (answers : Nat → Half × Half) :
    (s.captured answers).mem = writeFrameFrom s.baseL 0 ((List.range Config.readIters).map answers) s.mem := by
  obtain ⟨hbase, hmem, -⟩ := s.exposed_view
  rw [State.captured, State.placed_mem, State.countFrame_mem, State.readout_mem, hbase, hmem]

/-- What a capture leaves unchanged, and the counters it moves (R198). -/
theorem State.captured_counts (s : State) (answers : Nat → Half × Half) :
    (s.captured answers).st = .idle ∧ (s.captured answers).pulseCount = s.pulseCount + 1722#32 ∧
      (s.captured answers).frameCount = s.frameCount + 1#32 ∧ (s.captured answers).flushed = s.flushed ∧
      (s.captured answers).hostView = s.hostView := by
  obtain ⟨-, -, hhost, hframe, hflushed⟩ := s.exposed_view
  obtain ⟨hhost', -, -, hframe', hflushed'⟩ := s.exposed.readout_view answers Config.readIters
  unfold State.captured
  generalize s.exposed.readout answers Config.readIters = r at *
  exact ⟨rfl, rfl, congrArg (· + 1#32) (hframe'.trans hframe), hflushed'.trans hflushed, hhost'.trans hhost⟩

/-- The cycle that accepts a CAPTURE shows nothing and leads to the start marker with the configuration latched
(R190). -/
theorem cycle_acceptCapture (hi : s.st = .idle) (hlen : s.frameLen = 2560#32) (hbase : s.bufBase.toNat ≤ 0xFFFFF600)
    (hp : s.onlyTransaction 0x800000002#36) (d : Draws) :
    ∃ t, cycle p d s = .next t ∧ SameCourse t (s.latch.placed .capSiStart 0 0 0 s.pulseCount) ∧ t.pending = [] ∧
      t.tick = s.tick + 1 ∧ t.events = [] := by
  obtain ⟨u, hu, hview, hhost, hmem⟩ : ∃ u, exec .capture s = .next u ∧
      SameCourse u (s.latch.placed .capSiStart 0 0 0 s.pulseCount) :=
    ⟨_, idleCaptureLatchesAndStarts s hi hlen hbase, rfl, rfl, rfl⟩
  have hdec : decode 0x800000002#36 = .capture := by decide
  have hm := State.stimulus_cons hp
  have hc : cycle p d s = .next (s.endCycle u p d s.stimulus) := by
    simp [cycle, hm, State.conflicts, State.hostCycle, busUse, hdec, hu]
  refine ⟨_, hc, ?_, ?_, rfl, by simp [State.cycleEvents, State.slot_idle hi]⟩
  · rw [State.endCycle_idle _ _ _ _ _ hi, hm]
    exact ⟨hview, hhost, hmem⟩
  · rw [State.endCycle_pending, hp]
    rfl

/-- The run of a whole capture, from the cycle that accepts the command to the end (R191, R198, R327), with BUSY = 1
in every cycle between. -/
theorem capture_run {lat : Nat → Nat} (hi : s.st = .idle) (hlen : s.frameLen = 2560#32)
    (hbase : s.bufBase.toNat ≤ 0xFFFFF600) (hp : s.onlyTransaction 0x800000002#36)
    (h : AnswersAfter p d (s.tick + 1 + requestOffset p s.exposureUs s.trigEn s.trigIndex) lat) :
    let start := s.tick + 1 + requestOffset p s.exposureUs s.trigEn s.trigIndex
    let cycles := captureCycles p s.exposureUs s.trigEn s.trigIndex lat
    (∃ t, runCycles p d (1 + cycles) s =
        some (t, captureTrace s.exposureUs s.bufBase s.trigEn s.trigIndex (answersOf p d start lat)) ∧
      SameCourse t (s.latch.captured (readAnswer p d start lat))) ∧
    ∀ j, 1 ≤ j → j < 1 + cycles → ∃ t ev, runCycles p d j s = some (t, ev) ∧ t.busy = true := by
  intro start cycles
  obtain ⟨u, hc, hcourse, hpu, htick, hev⟩ := cycle_acceptCapture (p := p) hi hlen hbase hp (d s.tick)
  obtain ⟨⟨t, hrun, ht, -⟩, hbusy⟩ := Reaches.capture (s := s.latch) h u hcourse hpu htick
  refine ⟨⟨t, ?_, ht⟩, fun j h1 hj => ?_⟩
  · rw [Nat.add_comm, runCycles_succ _ _ _ hc, hev]
    exact congrArg (Option.map _) hrun
  · obtain ⟨i, rfl⟩ : ∃ i, j = i + 1 := Nat.exists_eq_add_of_le' h1
    have hlt : i < cycles := by omega
    obtain ⟨x, ev, hx, hxb⟩ := hbusy i hlt
    exact ⟨x, u.events ++ ev, by rw [runCycles_succ _ _ _ hc, hx]; rfl, hxb⟩

end

/-! ### Determinism -/

/-- At the end of a readout loop of 640 answers every byte of the frame is that of its offset's lane, whatever stood
in the memory before (R81, R87). -/
theorem writeFrame_covers {base : Word} {answers : List (Half × Half)} {x : Addr} (hbase : base.toNat ≤ 0xFFFFF600)
    (hlen : answers.length = 640) (hlo : base.toNat ≤ x.toNat) (hhi : x.toNat < base.toNat + 2560) :
    ∃ b, ∀ mem, Memory.read (writeFrameFrom base 0 answers mem) x = some b := by
  obtain ⟨lane, i, hi, hoff⟩ := exists_frameOffset (off := x.toNat - base.toNat) (by omega)
  have hx : x = base + BitVec.ofNat 32 (frameOffset lane (0 + i)) := by
    apply BitVec.eq_of_toNat_eq
    rw [Nat.zero_add, hoff, frameAddr_toNat hbase (by omega)]
    omega
  obtain ⟨⟨a, b⟩, hget⟩ : ∃ ab, answers[i]? = some ab := ⟨_, List.getElem?_eq_getElem (by omega)⟩
  rw [hx]
  exact ⟨laneByte lane a b, fun mem => writeFrameFrom_read_lane lane (by omega) hget⟩

theorem answersOf_length (p : Params) (d : Nat → Draws) (start : Nat) (lat : Nat → Nat) :
    (answersOf p d start lat).length = 640 := by
  rw [answersOf_eq, List.length_map, List.length_range]

/-- Settles O52: `capture_run` gives both runs; the trace depends on the configuration and the answers only, and the
frame holds the answers' bytes in both memories. -/
theorem captureIsDetermined : Obligations.CaptureIsDetermined := by
  intro p p' d d' s s' lat lat' hi hi' hlen hlen' hbase hp hp' hexp hbuf hten htidx h h' hanswers
  have hbase' : s'.bufBase.toNat ≤ 0xFFFFF600 := hbuf ▸ hbase
  obtain ⟨⟨t, hrun, hview, -, hmem⟩, -⟩ := capture_run hi hlen hbase hp h
  obtain ⟨⟨t', hrun', hview', -, hmem'⟩, -⟩ := capture_run hi' hlen' hbase' hp' h'
  rw [State.captured_mem, ← answersOf_eq, State.latch_baseL] at hmem hmem'
  rw [← hanswers, ← hexp, ← hbuf, ← hten, ← htidx] at hrun'
  rw [← hanswers, ← hbuf] at hmem'
  have hlen640 := answersOf_length p d (s.tick + 1 + requestOffset p s.exposureUs s.trigEn s.trigIndex) lat
  refine ⟨t, t', _, hrun, ?_, (seqView_eq hview).1.trans (State.captured_counts _ _).1,
    (seqView_eq hview').1.trans (State.captured_counts _ _).1, by simp [captureTrace], fun x hlo hhi => ?_⟩
  · rw [← hexp, ← hten, ← htidx]
    exact hrun'
  · obtain ⟨b, hb⟩ := writeFrame_covers hbase hlen640 hlo hhi
    rw [hmem, hmem', hb, hb]
    exact ⟨rfl, rfl⟩

end Sys2Proof.Machine

/-! PROOFS. The encoding of host transactions (spec/30_encoding.md R111 to R119). `decodeCommand_reserved` splits the
command words, and one equation for each descriptor says what `decode` makes of it; from them come the two round trips, and
from the round trips the rows of the opcode table, the operand fields and the listed words. -/

namespace Sys2Proof

/-! ### The command word (R114) -/

/-- RSV is not 0 or OP is above 3 exactly where the whole word is above 3. -/
theorem reservedCommand_fields (w : Word) :
    reservedCommand (w.extractLsb' 0 8) (w.extractLsb' 8 24) = true ↔ 3 < w.toNat := by
  have := w.isLt
  simp only [reservedCommand, Bool.or_eq_true, decide_eq_true_eq, ne_eq, BitVec.toNat_eq, BitVec.lt_def,
    BitVec.extractLsb'_toNat, Nat.shiftRight_eq_div_pow, BitVec.toNat_ofNat]
  omega

/-- The words the exact rows take, and all the others. -/
theorem command_cases (w : Word) : w = 0#32 ∨ w = 1#32 ∨ w = 2#32 ∨ w = 3#32 ∨ 3 < w.toNat := by
  simp only [BitVec.toNat_eq, BitVec.toNat_ofNat]
  omega

/-- Every word above 3 is reserved. -/
theorem decodeCommand_reserved {w : Word} (h : 3 < w.toNat) :
    decodeCommand w = .cmdRsv (w.extractLsb' 0 8) (w.extractLsb' 8 24) := by
  have hne : ∀ n : Nat, n ≤ 3 → w ≠ BitVec.ofNat 32 n := by
    rintro n hn rfl
    rw [BitVec.toNat_ofNat] at h
    omega
  simp [decodeCommand, hne]

theorem wellFormed_decodeCommand (w : Word) : WellFormed (decodeCommand w) = true := by
  rcases command_cases w with rfl | rfl | rfl | rfl | h
  · rfl
  · rfl
  · rfl
  · rfl
  · rw [decodeCommand_reserved h]
    exact (reservedCommand_fields w).2 h

theorem encode_decodeCommand (w : Word) : encode (decodeCommand w) = transactionOf 0x8#4 w := by
  rcases command_cases w with rfl | rfl | rfl | rfl | h
  · rfl
  · rfl
  · rfl
  · rfl
  · rw [decodeCommand_reserved h]
    exact congrArg (transactionOf 0x8#4) (BitVec.extractLsb'_append_extractLsb' (w := 24) (len := 8))

/-! ### What each descriptor decodes to (R112) -/

section
variable (v : Word)

@[simp] theorem decode_readCmd : decode (transactionOf 0x0#4 v) = .rdCmd := by simp [decode]
@[simp] theorem decode_readStatus : decode (transactionOf 0x1#4 v) = .rdStatus := by simp [decode]
@[simp] theorem decode_readExposure : decode (transactionOf 0x2#4 v) = .rdExposure := by simp [decode]
@[simp] theorem decode_readFrameLen : decode (transactionOf 0x3#4 v) = .rdFrameLen := by simp [decode]
@[simp] theorem decode_readBufBase : decode (transactionOf 0x4#4 v) = .rdBufBase := by simp [decode]
@[simp] theorem decode_readTrigCtrl : decode (transactionOf 0x5#4 v) = .rdTrigCtrl := by simp [decode]
@[simp] theorem decode_readPulseCount : decode (transactionOf 0x6#4 v) = .rdPulseCount := by simp [decode]
@[simp] theorem decode_readFrameCount : decode (transactionOf 0x7#4 v) = .rdFrameCount := by simp [decode]
@[simp] theorem decode_writeCmd : decode (transactionOf 0x8#4 v) = decodeCommand v := by simp [decode]
@[simp] theorem decode_writeStatus : decode (transactionOf 0x9#4 v) = .wrStatus v := by simp [decode]
@[simp] theorem decode_writeExposure : decode (transactionOf 0xA#4 v) = .wrExposure v := by simp [decode]
@[simp] theorem decode_writeFrameLen : decode (transactionOf 0xB#4 v) = .wrFrameLen v := by simp [decode]
@[simp] theorem decode_writeBufBase : decode (transactionOf 0xC#4 v) = .wrBufBase v := by simp [decode]
@[simp] theorem decode_writeTrigCtrl : decode (transactionOf 0xD#4 v) = .wrTrigCtrl v := by simp [decode]
@[simp] theorem decode_writePulseCount : decode (transactionOf 0xE#4 v) = .wrPulseCount v := by simp [decode]
@[simp] theorem decode_writeFrameCount : decode (transactionOf 0xF#4 v) = .wrFrameCount v := by simp [decode]

end

/-! ### The two round trips (R117) -/

/-- Settles O1: each row's descriptor selects the row and the data is the operand; a well-formed reserved word is none of
the four exact rows. -/
theorem decodeEncodeRoundTrip : Obligations.DecodeEncodeRoundTrip := by
  intro i hwf
  cases i with
  | cmdRsv op rsv =>
    have hres : 3 < (rsv ++ op).toNat := by
      rw [← reservedCommand_fields, BitVec.extractLsb'_append_eq_right, BitVec.extractLsb'_append_eq_left]
      exact hwf
    rw [encode, decode_writeCmd, decodeCommand_reserved hres, BitVec.extractLsb'_append_eq_right,
      BitVec.extractLsb'_append_eq_left]
  | nop | init | capture | clrerr => simp [encode, decodeCommand]
  | rdCmd | rdStatus | rdExposure | rdFrameLen | rdBufBase | rdTrigCtrl | rdPulseCount | rdFrameCount => simp [encode]
  | wrStatus | wrExposure | wrFrameLen | wrBufBase | wrTrigCtrl | wrPulseCount | wrFrameCount => simp [encode]

theorem wellFormed_decode (t : Transaction) : WellFormed (decode t) = true := by
  unfold decode
  split
  case h_9 => exact wellFormed_decodeCommand _
  all_goals rfl

/-- The descriptors with WE = 1. -/
theorem write_descriptors : ∀ k : BitVec 4, k.getLsbD 3 = true →
    k = 0x8#4 ∨ k = 0x9#4 ∨ k = 0xA#4 ∨ k = 0xB#4 ∨ k = 0xC#4 ∨ k = 0xD#4 ∨ k = 0xE#4 ∨ k = 0xF#4 := by
  decide

/-- The descriptors with WE = 0. -/
theorem read_descriptors : ∀ k : BitVec 4, k.getLsbD 3 = false →
    k = 0x0#4 ∨ k = 0x1#4 ∨ k = 0x2#4 ∨ k = 0x3#4 ∨ k = 0x4#4 ∨ k = 0x5#4 ∨ k = 0x6#4 ∨ k = 0x7#4 := by
  decide

theorem encode_decode_write {k : BitVec 4} (hk : k.getLsbD 3 = true) (v : Word) :
    encode (decode (transactionOf k v)) = transactionOf k v := by
  rcases write_descriptors k hk with rfl | rfl | rfl | rfl | rfl | rfl | rfl | rfl
  · rw [decode_writeCmd, encode_decodeCommand]
  all_goals simp [encode]

theorem encode_decode_read {k : BitVec 4} (hk : k.getLsbD 3 = false) (v : Word) :
    encode (decode (transactionOf k v)) = transactionOf k 0#32 := by
  rcases read_descriptors k hk with rfl | rfl | rfl | rfl | rfl | rfl | rfl | rfl <;> simp [encode]

/-- WE is the top bit of the descriptor (R111). -/
theorem descriptorOf_writeBit (t : Transaction) : (descriptorOf t).getLsbD 3 = t.getLsbD 35 := by
  simp [descriptorOf]

/-- The descriptor's mask clears the data. -/
theorem and_descriptorMask_eq (t : Transaction) : t &&& 0xF00000000#36 = transactionOf (descriptorOf t) 0#32 := by
  simpa only [transactionOf_parts] using Laws.and_descriptorMask (descriptorOf t) (dataOf t)

theorem encode_decode_of_write {t : Transaction} (hw : t.getLsbD 35 = true) : encode (decode t) = t := by
  rw [← descriptorOf_writeBit] at hw
  simpa only [transactionOf_parts] using encode_decode_write hw (dataOf t)

theorem encode_decode_of_read {t : Transaction} (hr : t.getLsbD 35 = false) :
    encode (decode t) = t &&& 0xF00000000#36 := by
  rw [← descriptorOf_writeBit] at hr
  rw [and_descriptorMask_eq]
  simpa only [transactionOf_parts] using encode_decode_read hr (dataOf t)

/-- Settles O2: a transaction is its descriptor and its data, and WE says which of the two cases it is. -/
theorem everyTransactionReencodes : Obligations.EveryTransactionReencodes := fun t =>
  ⟨wellFormed_decode t, encode_decode_of_write, encode_decode_of_read⟩

/-! ### The rows of the opcode table (R112, R117) -/

/-- Encoding again keeps the descriptor. -/
theorem descriptorOf_encode_decode (t : Transaction) : descriptorOf (encode (decode t)) = descriptorOf t := by
  rw [← transactionOf_parts t]
  cases hk : (descriptorOf t).getLsbD 3 with
  | true => rw [encode_decode_write hk]
  | false => rw [encode_decode_read hk, descriptorOf_transactionOf, descriptorOf_transactionOf]

/-- The match and mask of a row that fixes only the descriptor. -/
theorem and_descriptorMask_iff (t : Transaction) (k : BitVec 4) :
    t &&& 0xF00000000#36 = transactionOf k 0#32 ↔ descriptorOf t = k := by
  rw [and_descriptorMask_eq]
  refine ⟨fun h => ?_, fun h => by rw [h]⟩
  simpa using congrArg descriptorOf h

/-- An exact row takes one word: the encoding of its operation. -/
theorem exactRow_iff {i : Instr} (hwf : WellFormed i = true) (hw : (encode i).getLsbD 35 = true) (t : Transaction) :
    decode t = i ↔ t = encode i := by
  refine ⟨?_, fun h => h ▸ decodeEncodeRoundTrip i hwf⟩
  rintro rfl
  rw [← descriptorOf_writeBit, descriptorOf_encode_decode, descriptorOf_writeBit] at hw
  exact (encode_decode_of_write hw).symm

/-- A read's row takes the transactions with its descriptor, whatever their data. -/
theorem readRow_iff {i : Instr} {k : BitVec 4} (he : encode i = transactionOf k 0#32)
    (hd : ∀ v, decode (transactionOf k v) = i) (t : Transaction) :
    decode t = i ↔ t &&& 0xF00000000#36 = transactionOf k 0#32 := by
  rw [and_descriptorMask_iff]
  refine ⟨?_, ?_⟩
  · rintro rfl
    rw [← descriptorOf_encode_decode, he, descriptorOf_transactionOf]
  · rintro rfl
    simpa only [transactionOf_parts] using hd (dataOf t)

/-- A write's row takes the transactions with its descriptor, and the operand is their data. -/
theorem writeRow_iff {c : Word → Instr} {k : BitVec 4} (he : ∀ v, encode (c v) = transactionOf k v)
    (hd : ∀ v, decode (transactionOf k v) = c v) (t : Transaction) :
    (∃ v, decode t = c v) ↔ t &&& 0xF00000000#36 = transactionOf k 0#32 := by
  rw [and_descriptorMask_iff]
  refine ⟨?_, ?_⟩
  · rintro ⟨v, hv⟩
    rw [← descriptorOf_encode_decode, hv, he, descriptorOf_transactionOf]
  · rintro rfl
    exact ⟨dataOf t, by simpa only [transactionOf_parts] using hd (dataOf t)⟩

/-- The CMD_RSV row takes the CMD writes the exact rows leave. -/
theorem reservedRow_iff (t : Transaction) :
    (∃ op rsv, decode t = .cmdRsv op rsv) ↔
      t &&& 0xF00000000#36 = transactionOf 0x8#4 0#32 ∧ t ≠ encode .nop ∧ t ≠ encode .init ∧ t ≠ encode .capture ∧
        t ≠ encode .clrerr := by
  rw [and_descriptorMask_iff]
  refine ⟨?_, ?_⟩
  · rintro ⟨op, rsv, h⟩
    refine ⟨?_, ?_⟩
    · rw [← descriptorOf_encode_decode, h, encode, descriptorOf_transactionOf]
    · have hne : ∀ i, WellFormed i = true → (encode i).getLsbD 35 = true → i ≠ .cmdRsv op rsv → t ≠ encode i :=
        fun i hwf hw hi ht => hi (((exactRow_iff hwf hw t).2 ht).symm.trans h)
      exact ⟨hne _ rfl rfl nofun, hne _ rfl rfl nofun, hne _ rfl rfl nofun, hne _ rfl rfl nofun⟩
  · rintro ⟨hk, h0, h1, h2, h3⟩
    rw [← transactionOf_parts t, hk] at h0 h1 h2 h3 ⊢
    rw [decode_writeCmd]
    rcases command_cases (dataOf t) with h | h | h | h | h
    · exact absurd (congrArg _ h) h0
    · exact absurd (congrArg _ h) h1
    · exact absurd (congrArg _ h) h2
    · exact absurd (congrArg _ h) h3
    · exact ⟨_, _, decodeCommand_reserved h⟩

/-- Settles O3: the row of each descriptor, the exact command rows before the CMD_RSV row. -/
theorem opcodeRowsSelectTheirOperation : Obligations.OpcodeRowsSelectTheirOperation := fun t =>
  ⟨exactRow_iff rfl rfl t, exactRow_iff rfl rfl t, exactRow_iff rfl rfl t, exactRow_iff rfl rfl t, reservedRow_iff t,
    readRow_iff rfl decode_readCmd t, readRow_iff rfl decode_readStatus t, readRow_iff rfl decode_readExposure t,
    readRow_iff rfl decode_readFrameLen t, readRow_iff rfl decode_readBufBase t, readRow_iff rfl decode_readTrigCtrl t,
    readRow_iff rfl decode_readPulseCount t, readRow_iff rfl decode_readFrameCount t,
    writeRow_iff (fun _ => rfl) decode_writeStatus t, writeRow_iff (fun _ => rfl) decode_writeExposure t,
    writeRow_iff (fun _ => rfl) decode_writeFrameLen t, writeRow_iff (fun _ => rfl) decode_writeBufBase t,
    writeRow_iff (fun _ => rfl) decode_writeTrigCtrl t, writeRow_iff (fun _ => rfl) decode_writePulseCount t,
    writeRow_iff (fun _ => rfl) decode_writeFrameCount t⟩

/-! ### Operands and listed words (R113, R114, R119) -/

/-- Settles O4: the operands are what the equation of each descriptor says, and the reserved word's fields come back by the
round trip. -/
theorem operandsAreTheDataBits : Obligations.OperandsAreTheDataBits := by
  intro v op rsv
  refine ⟨decode_writeStatus v, decode_writeExposure v, decode_writeFrameLen v, decode_writeBufBase v, decode_writeTrigCtrl v,
    decode_writePulseCount v, decode_writeFrameCount v, fun h => ?_⟩
  have hwf : WellFormed (.cmdRsv op rsv) = true := by simpa [WellFormed, reservedCommand, BitVec.lt_def] using h
  exact decodeEncodeRoundTrip (.cmdRsv op rsv) hwf

/-- Settles O5: each word is the encoding of a well-formed operation. -/
theorem listedWordsDecode : Obligations.ListedWordsDecode :=
  ⟨decodeEncodeRoundTrip .capture rfl, decodeEncodeRoundTrip (.cmdRsv 0x02#8 0x000001#24) rfl,
    decodeEncodeRoundTrip .rdStatus rfl, decodeEncodeRoundTrip (.wrExposure 10#32) rfl,
    decodeEncodeRoundTrip (.wrTrigCtrl 0x00120001#32) rfl, decodeEncodeRoundTrip (trigPseudo 18#16 true) rfl⟩

end Sys2Proof

/-! PROOFS. The register writes (spec/43_host_ops.md R227 to R233), and the step that runs a transaction
(spec/70_reset_and_hazards.md R321): a cycle with a transaction, no reset and no broken ownership is the decoded operation and
then the end of the cycle. -/

namespace Sys2Proof.Machine

/-- Settles O10: each write's meaning sets one register and ends the write. -/
theorem writesSetTheirRegister : Obligations.WritesSetTheirRegister := fun _ _ => ⟨rfl, rfl, rfl, rfl⟩

/-- A cycle in which the host applies a transaction runs its operation and then ends. -/
theorem cycle_transaction {s : State} {x : Transaction} (p : Params) (d : Draws) (hr : s.stimulus.rst = false)
    (ha : s.stimulus.access = .transact x) (hf : s.conflicts s.stimulus = false) :
    ∃ t, exec (decode x) s = .next t ∧ cycle p d s = .next (s.endCycle t p d s.stimulus) := by
  obtain ⟨t, ht⟩ := exec_next (decode x) s
  refine ⟨t, ht, ?_⟩
  have hhost : s.hostCycle p s.stimulus = .next t := by rw [State.hostCycle, ha]; exact ht
  simp [cycle, hf, hr, hhost]

/-- What a table word decodes to is what its bits, as a transaction, decode to. -/
theorem decode_of_decodeTableWord {nbits w : Nat} {i : Instr} (h : decodeTableWord nbits w = some i) :
    decode (BitVec.ofNat 36 (w % 2 ^ nbits)) = i := by
  unfold decodeTableWord decodeNat at h
  split at h
  · exact Option.some.inj h
  · cases h

/-- Settles O17: a placed word is a transaction with no reset and no frame access. -/
theorem stepRunsTheDecodedOperation : Obligations.StepRunsTheDecodedOperation := by
  have hrun : ∀ (s : State) (x : Transaction) (f : FrameAccess) (rest : List Stimulus),
      s.pending = ⟨false, .transact x, f⟩ :: rest → s.conflicts ⟨false, .transact x, f⟩ = false →
      ∃ t, exec (decode x) s = .next t ∧
        step s = .next (s.endCycle t Config.params (Config.draws s.tick) ⟨false, .transact x, f⟩) := by
    intro s x f rest hp hf
    have hm := State.stimulus_cons hp
    rw [← hm] at hf ⊢
    exact cycle_transaction _ _ (by rw [hm]) (by rw [hm]) hf
  refine ⟨hrun, fun s nbits w i hi => ?_⟩
  obtain ⟨t, ht, hstep⟩ := hrun (s.withFetchWord nbits w) _ .quiet _ rfl rfl
  rw [decode_of_decodeTableWord hi] at ht
  exact ⟨_, t, ht, hstep⟩

end Sys2Proof.Machine

/-! PROOFS. CLOCK and SI at a clock edge (spec/40_primitives.md R144, spec/60_exceptions.md R311): which positions hold SI
high, and that no "next" entry moves both lines. -/

namespace Sys2Proof.Machine

/-! ### SI in the slot tables -/

/-- Whether a slot is a phase with SI high (R141). -/
def Slot.holdsSi : Slot → Bool
  | .phase _ v _ => v
  | _ => false

/-- SI is high in the first three phases of an SI pulse (R143). -/
theorem siPulseSlot_holdsSi (n : Nat) : (siPulseSlot n).holdsSi = decide (n < 3) := by
  match n with
  | 0 | 1 | 2 | 3 => rfl
  | n + 4 => simp [siPulseSlot, Slot.holdsSi]

/-- CLOCK is high in the second phase of an SI pulse (R143). -/
theorem siPulseSlot_startsHigh (n : Nat) : (siPulseSlot n).startsHigh = decide (n = 1) := by
  match n with
  | 0 | 1 | 2 | 3 => rfl
  | n + 4 => simp [siPulseSlot, Slot.startsHigh]

theorem clkPulseSlot_holdsSi (n : Nat) : (clkPulseSlot n).holdsSi = false := by
  match n with
  | 0 | 1 | 2 | n + 3 => rfl

/-- Beside the first three phases of an SI pulse every position holds SI low (R142, R171, R193 to R196). -/
theorem slotAt_holdsSi {q : Fsm} {n : Nat} (h : (q = .flushSi ∨ q = .capSiStart ∨ q = .capSiStop) → 3 ≤ n) :
    (slotAt q n).holdsSi = false := by
  cases q with
  | idle => rfl
  | flushSi | capSiStart | capSiStop =>
    rw [slotAt_si (by simp), siPulseSlot_holdsSi]
    simpa using h
  | flushA | flushB => exact clkPulseSlot_holdsSi n
  | boot =>
    match n with
    | 0 | 1 | n + 2 => rfl
  | capProp =>
    match n with
    | 0 => rfl
    | n + 1 => exact clkPulseSlot_holdsSi (n + 1)
  | capExpo =>
    match n with
    | 0 | n + 1 => rfl
  | capRead =>
    match n with
    | 0 | 1 | 2 | 3 | 4 | 5 | 6 | n + 7 => rfl

section
variable {p : Params} {d : Draws} {s t : State}

theorem State.outputs_siOut (s : State) : s.outputs.siOut = s.slot.holdsSi := by
  unfold State.outputs
  cases s.slot <;> rfl

/-! ### The edge between two slots -/

/-- The edge that ends a slot does not move both lines: an SI pulse moves CLOCK while SI is high and SI while CLOCK is low
(R143), where one begins CLOCK is low on both sides, and elsewhere SI is. -/
theorem NextEntry.one_line (h : NextEntry s t) :
    s.slot.startsHigh = t.slot.startsHigh ∨ s.slot.holdsSi = t.slot.holdsSi := by
  have hclock : s.sub ≠ 1 ∨ s.st = .capExpo → s.slot.startsHigh = false := fun hs =>
    Bool.eq_false_iff.2 fun hhigh => by
      obtain ⟨hsub, -, hexpo⟩ := State.sub_of_startsHigh hhigh
      exact hs.elim (absurd hsub) hexpo
  cases h with
  | siPhase hst hsub =>
    rw [State.enter_slot, State.slot, slotAt_si hst, slotAt_si hst]
    simp only [siPulseSlot_startsHigh, siPulseSlot_holdsSi, decide_eq_decide]
    omega
  | flushAEnd _ hsub => exact .inl (hclock (.inl hsub))
  | propEndSkip _ hsub => exact .inl (hclock (.inl (by omega)))
  | expoEnd hst => exact .inl (hclock (.inr hst))
  | siStartEnd _ hsub =>
    rw [State.beginProp_eq]
    exact .inr ((slotAt_holdsSi fun _ => Nat.le_of_not_lt hsub).trans (slotAt_holdsSi (by simp)).symm)
  | propPulse hst =>
    rw [State.beginProp_eq]
    exact .inr ((slotAt_holdsSi (by simp [hst])).trans (slotAt_holdsSi (by simp)).symm)
  | flushSiEnd _ hsub | siStopEnd _ hsub => exact .inr (slotAt_holdsSi fun _ => Nat.le_of_not_lt hsub)
  | flushLow hst | flushPulse hst =>
    rcases hst with hst | hst <;>
      exact .inr ((slotAt_holdsSi (by simp [hst])).trans (slotAt_holdsSi (by simp [hst])).symm)
  | bootClock hst | bootEnd hst | flushBEnd hst | propPhase hst | propEndWait hst | readSlot hst | readIter hst
  | readEnd hst => exact .inr ((slotAt_holdsSi (by simp [hst])).trans (slotAt_holdsSi (by simp)).symm)

theorem SlotCycle.one_line (h : SlotCycle p d s t) (hi : s.st ≠ .idle) :
    s.slot.startsHigh = t.slot.startsHigh ∨ s.slot.holdsSi = t.slot.holdsSi := by
  cases h with
  | noSlot | unanswered | phaseHeld | prescCounts | usCounts => exact .inl rfl
  | phaseEnds | strobe => exact (nextEntry_advance hi).one_line
  | answered => exact (nextEntry_advance (s := s.takeSample p d) hi).one_line
  | stored lane => exact (nextEntry_advance (s := s.storeLane lane) hi).one_line
  | waited => exact (nextEntry_advance (s := s.countUs) hi).one_line

/-- In IDLE a host operation moves CLOCK where it begins the flush, SI where it begins a capture, and else no line. -/
theorem HostEffect.one_line (h : HostEffect s t) :
    s.slot.startsHigh = t.slot.startsHigh ∨ s.slot.holdsSi = t.slot.holdsSi := by
  cases h with
  | startFlush hi => exact .inr (by rw [State.slot_idle hi]; rfl)
  | startCapture hi => exact .inl (by rw [State.slot_idle hi]; rfl)
  | none | cmdErr | argErrs | clearErrs | exposure | frameLen | bufBase | trig => exact .inl rfl

end

/-- Settles O28: the lines are the levels of the slot, and neither the slot's cycle nor a host operation in IDLE moves
both. -/
theorem clockAndSiNeverChangeTogether : Obligations.ClockAndSiNeverChangeTogether := by
  intro p d s t hr hc
  simp only [State.outputs_clkOut, State.outputs_siOut]
  by_cases hi : s.st = .idle
  · obtain ⟨v, u, hu, rfl⟩ := idle_cycle hc hr hi
    exact hu.one_line
  · rw [slot_view (busy_cycle_view hc hr hi)]
    exact (slotCycle_sequence p d s).one_line hi

end Sys2Proof.Machine

/-! PROOFS. The primitives cycle by cycle (spec/40_primitives.md R142, R143, R148, R150): what the lines show in each
cycle of a pulse and of the exposure wait, how the wait begins, and the packing law. `runCycles_phase` reads one cycle of
a phase off the run that leads to the phase. -/

namespace Sys2Proof.Machine

section
variable {p : Params} {d : Nat → Draws} {s : State}

/-! ### A cycle of a phase -/

/-- A cycle of a phase that a run leads to: the lines are at the levels of the phase, in the state and with the count of
edges the phase began with. -/
theorem runCycles_phase {u : State} {c v : Bool} {e : Event} {ev : List Event} {n j : Nat}
    (hrun : Reaches p d n s.tick s u ev) (hp : s.pending = []) (hslot : u.slot = .phase c v e) (h0 : u.tcnt = 0)
    (hj : j < p.tHalf) :
    ∃ t ev', runCycles p d (n + j) s = some (t, ev') ∧ t.st = u.st ∧ t.outputs.siOut = v ∧ t.outputs.clkOut = c ∧
      t.pulseCount = u.pulseCount := by
  obtain ⟨⟨t, ht, ⟨hview, -⟩, -⟩, -⟩ :=
    (hrun.comp (Reaches.phase_held hslot h0 _ hj)) s (.refl s) hp rfl
  have hout : t.outputs = { u.restPorts with clkOut := c, siOut := v } :=
    (outputs_view hview).trans (State.outputs_phase (s := u.atCount j) hslot)
  obtain ⟨hst, -, -, -, -, -, -, -, -, -, -, -, -, hpulse, -⟩ := seqView_eq hview
  exact ⟨t, _, ht, hst, by rw [hout], by rw [hout], hpulse⟩

/-- Cycle `k` of `n` rounds of `h` cycles each is cycle `j` of round `i`. -/
theorem exists_round_cycle {h n k : Nat} (hk : k < n * h) : ∃ i j, i < n ∧ j < h ∧ k = i * h + j := by
  have hpos : 0 < h := Nat.pos_of_ne_zero fun h0 => by simp [h0] at hk
  exact ⟨k / h, k % h, (Nat.div_lt_iff_lt_mul hpos).2 hk, Nat.mod_lt k hpos, (Nat.div_add_mod' k h).symm⟩

/-! ### The SI pulse -/

/-- `s`, the beginning of an SI pulse, where phase `i` of the pulse begins: the edge of CLOCK is counted from phase 1 on
(R143). -/
def State.siPhase (s : State) : Nat → State
  | 0 => s
  | i + 1 => s.placed s.st (i + 1) 0 0 (s.pulseCount + 1#32)

@[simp] theorem State.siPhase_st (s : State) (i : Nat) : (s.siPhase i).st = s.st := by cases i <;> rfl

theorem State.siPhase_sub (hsub : s.sub = 0) (i : Nat) : (s.siPhase i).sub = i := by
  cases i with
  | zero => exact hsub
  | succ i => rfl

theorem State.siPhase_tcnt (h0 : s.tcnt = 0) (i : Nat) : (s.siPhase i).tcnt = 0 := by
  cases i with
  | zero => exact h0
  | succ i => rfl

theorem State.siPhase_pulseCount (s : State) (i : Nat) :
    (s.siPhase i).pulseCount = s.pulseCount + if i = 0 then 0#32 else 1#32 := by
  cases i with
  | zero => simp [State.siPhase]
  | succ i => rfl

/-- The phases of an SI pulse follow one another. -/
theorem State.siPhase_advance (hst : s.st = .flushSi ∨ s.st = .capSiStart ∨ s.st = .capSiStop) (hsub : s.sub = 0)
    {i : Nat} (hi : i < 3) : (s.siPhase i).advance = s.siPhase (i + 1) := by
  have hadv := State.advance_si (s := s.siPhase i) (by simpa using hst) (by rwa [State.siPhase_sub hsub])
  rw [State.siPhase_sub hsub, State.siPhase_st, siPulseSlot_startsHigh] at hadv
  rw [hadv]
  cases i with
  | zero => rfl
  | succ i => rfl

/-- From the beginning of an SI pulse to the beginning of its phase `i`. -/
theorem Reaches.siPhases (hst : s.st = .flushSi ∨ s.st = .capSiStart ∨ s.st = .capSiStop) (hsub : s.sub = 0)
    (h0 : s.tcnt = 0) (k : Nat) {i : Nat} (hi : i < 4) : ∃ ev, Reaches p d (i * p.tHalf) k s (s.siPhase i) ev := by
  induction i with
  | zero => exact ⟨[], by rw [Nat.zero_mul]; exact Reaches.zero⟩
  | succ i ih =>
    obtain ⟨ev, hev⟩ := ih (by omega)
    obtain ⟨c, v, e, hslot⟩ : ∃ c v e, siPulseSlot (s.siPhase i).sub = .phase c v e := by
      rw [State.siPhase_sub hsub]
      match i with
      | 0 | 1 | 2 => exact ⟨_, _, _, rfl⟩
    have hnext := Reaches.siPhase (p := p) (d := d) (s := s.siPhase i) (by simpa using hst) hslot
      (State.siPhase_tcnt h0 i) (k + i * p.tHalf)
    rw [State.siPhase_advance hst hsub (by omega)] at hnext
    rw [Nat.succ_mul]
    exact ⟨_, hev.comp hnext⟩

/-- The levels of the phases of an SI pulse (R143). -/
theorem siPulseSlot_levels {i : Nat} (hi : i < 4) : ∃ e, siPulseSlot i = .phase (decide (i = 1)) (decide (i < 3)) e := by
  match i with
  | 0 | 1 | 2 | 3 => exact ⟨_, rfl⟩

/-- The end of an SI pulse leaves its state (R174, R192, R195). -/
theorem State.advance_siEnd (hst : s.st = .flushSi ∨ s.st = .capSiStart ∨ s.st = .capSiStop) (hsub : s.sub = 3) :
    s.advance.st ≠ s.st := by
  rcases hst with hst | hst | hst
  · simp [State.advance, hst, State.advanceSi, hsub]
  · simp [State.advance_siStart hst hsub, State.beginProp_eq, hst]
  · simp [State.advance, hst, State.advanceSi, hsub]

end

/-- Settles O35: cycle `k` is in phase `k / T_HALF` of the pulse, whose slot has the levels and whose beginning the count;
`Reaches.siPulse` gives the end. -/
theorem siPulseShape : Obligations.SiPulseShape := by
  intro p d s hst hsub h0 hp
  refine ⟨fun k hk => ?_, ?_⟩
  · obtain ⟨i, j, hi, hj, rfl⟩ := exists_round_cycle hk
    obtain ⟨ev, hrun⟩ := Reaches.siPhases (p := p) (d := d) hst hsub h0 s.tick hi
    obtain ⟨e, he⟩ := siPulseSlot_levels hi
    have hslot : (s.siPhase i).slot = .phase (decide (i = 1)) (decide (i < 3)) e := by
      rw [State.slot, State.siPhase_st, State.siPhase_sub hsub, slotAt_si hst, he]
    obtain ⟨t, ev', ht, htst, hsi, hclk, hpulse⟩ := runCycles_phase hrun hp hslot (State.siPhase_tcnt h0 i) hj
    rw [State.siPhase_st] at htst
    rw [State.siPhase_pulseCount] at hpulse
    have hphase : (i < 3 ↔ i * p.tHalf + j < 3 * p.tHalf) ∧ (i = 0 ↔ i * p.tHalf + j < p.tHalf) ∧
        (i = 1 ↔ p.tHalf ≤ i * p.tHalf + j ∧ i * p.tHalf + j < 2 * p.tHalf) := by
      match i with
      | 0 | 1 | 2 | 3 => omega
    obtain ⟨h3, hfirst, hsecond⟩ := hphase
    exact ⟨t, ev', ht, htst, by simp [hsi, h3], by simp [hclk, hsecond], by simp [hpulse, hfirst]⟩
  · obtain ⟨⟨t, hrun, ⟨hview, -⟩, -⟩, -⟩ := Reaches.siPulse (p := p) (d := d) hst hsub h0 s.tick s (.refl s) hp rfl
    refine ⟨t, hrun, ?_⟩
    rw [(seqView_eq hview).1]
    exact State.advance_siEnd (s := s.placed s.st 3 0 0 (s.pulseCount + 1#32)) hst rfl

section
variable {p : Params} {d : Nat → Draws} {s : State}

/-! ### The clock pulse -/

/-- The slots of a clock pulse are the same in the four states that have them. -/
theorem slotAt_clk {q : Fsm} (hq : q = .flushA ∨ q = .flushB ∨ q = .capProp ∨ q = .capRead) :
    slotAt q 1 = .phase true false (.clk true) ∧ slotAt q 2 = .phase false false (.clk false) := by
  rcases hq with rfl | rfl | rfl | rfl <;> exact ⟨rfl, rfl⟩

/-- The first phase of a clock pulse is followed by the second in the same state. -/
theorem State.advance_clkHigh (hst : s.st = .flushA ∨ s.st = .flushB ∨ s.st = .capProp ∨ s.st = .capRead)
    (hsub : s.sub = 1) : s.advance.st = s.st ∧ s.advance.sub = 2 := by
  rcases hst with hst | hst | hst | hst
  · simp [State.advance, hst, State.advanceFlush, hsub]
  · simp [State.advance, hst, State.advanceFlush, hsub]
  · simp [State.advance, hst, State.advanceProp, hsub]
  · simp [State.advance_readSlot hst, hst, hsub]

/-- The edge that ends a slot sets no line: its events are `Wait` and `Done` (R13). -/
theorem State.endEvents_not_line {e : Event} (h : e ∈ s.endEvents) : e.isLine = false := by
  unfold State.endEvents at h
  cases hst : s.st with
  | flushB | capProp | capRead =>
    simp only [hst] at h
    split at h
    · obtain rfl := List.mem_singleton.1 h
      rfl
    · cases h
  | idle | boot | flushA | flushSi | capSiStart | capExpo | capSiStop => simp [hst] at h

end

/-- Settles O36: the first half is the phase the pulse begins with and the second the one after it; `Reaches.clkPulse`
gives the end. -/
theorem clockPulseShape : Obligations.ClockPulseShape := by
  intro p d s hst hsub h0 hp
  obtain ⟨hhigh, hlow⟩ := slotAt_clk hst
  obtain ⟨hst', hsub'⟩ := State.advance_clkHigh hst hsub
  have hslot : s.slot = .phase true false (.clk true) := by rw [State.slot, hsub, hhigh]
  have hslot' : s.advance.slot = .phase false false (.clk false) := by rw [State.slot, hst', hsub', hlow]
  refine ⟨fun k hk => ?_, ?_⟩
  · rcases Nat.lt_or_ge k p.tHalf with hlt | hge
    · obtain ⟨t, ev, ht, htst, hsi, hclk, -⟩ := runCycles_phase (d := d) Reaches.zero hp hslot h0 hlt
      rw [Nat.zero_add] at ht
      exact ⟨t, ev, ht, htst, hsi, by simp [hclk, hlt]⟩
    · obtain ⟨j, rfl⟩ := Nat.exists_eq_add_of_le hge
      obtain ⟨t, ev, ht, htst, hsi, hclk, -⟩ := runCycles_phase (p := p) (d := d) (Reaches.phase hslot h0 _) hp hslot'
        (State.tcnt_advance (State.st_ne_idle_of_phase hslot)) (j := j) (by omega)
      exact ⟨t, ev, ht, htst.trans hst', hsi, by simp [hclk]⟩
  · obtain ⟨⟨t, hrun, ⟨hview, -⟩, -⟩, -⟩ := Reaches.clkPulse (p := p) (d := d) hst hsub h0 s.tick s (.refl s) hp rfl
    refine ⟨t, _, hrun, fun e => ⟨fun h => ?_, fun h => ?_⟩, fun hread => ?_⟩
    · cases State.endEvents_not_line h
    · cases State.endEvents_not_line h
    · rw [State.advance_readSlot (s := s.advance) (hst'.trans hread) (by omega), hsub'] at hview
      obtain ⟨htst, -, -, htsub, -⟩ := seqView_eq hview
      exact ⟨htst, htsub⟩

section
variable {p : Params} {d : Nat → Draws} {s : State}

/-! ### The exposure wait, microsecond by microsecond -/

/-- `m` microseconds of the wait that are not its last only count the timer down (R150). -/
theorem Reaches.microseconds (hslot : s.slot = .wait) {u : Word} (k : Nat) {m : Nat} (hm : m < u.toNat) :
    Reaches p d (m * p.clkPerUs) k (s.timer u 0) (s.timer (u - BitVec.ofNat 32 m) 0) [] := by
  induction m with
  | zero => simpa using Reaches.zero
  | succ m ih =>
    have hnext := Reaches.microsecond (p := p) (d := d) hslot (u - BitVec.ofNat 32 m) (k + m * p.clkPerUs)
    have hmore : u - BitVec.ofNat 32 m ≠ 1#32 := by bv_omega
    have hleft : u - BitVec.ofNat 32 m - 1#32 = u - BitVec.ofNat 32 (m + 1) := by bv_omega
    rw [if_neg hmore, hleft] at hnext
    rw [Nat.succ_mul]
    exact (ih (by omega)).comp hnext

/-- In the wait every line rests low (R51, R150). -/
theorem State.outputs_wait (hslot : s.slot = .wait) : s.outputs = s.restPorts := by
  simp [State.outputs, hslot]

end

/-- Settles O44: cycle `k` is in microsecond `k / CLK_PER_US` of the wait, and the timer changes neither the slot nor the
lines; `Reaches.wait` gives the end. -/
theorem exposureWaitDuration : Obligations.ExposureWaitDuration := by
  intro p d s hst hsub hpresc hus hp
  have hslot : s.slot = .wait := by rw [State.slot, hst, hsub]; rfl
  have hself : s.timer s.usLeft 0 = s := by rw [← hpresc]; rfl
  refine ⟨fun k hk => ?_, ?_⟩
  · obtain ⟨m, c, hm, hc, rfl⟩ := exists_round_cycle hk
    have hreach := (Reaches.microseconds (p := p) (d := d) hslot s.tick hm).comp (Reaches.wait_held hslot _ hc)
    rw [hself] at hreach
    obtain ⟨⟨t, hrun, ⟨hview, -⟩, -⟩, -⟩ := hreach s (.refl s) hp rfl
    have hout : t.outputs = s.restPorts := (outputs_view hview).trans (State.outputs_wait (by exact hslot))
    exact ⟨t, hrun, (seqView_eq hview).1.trans hst, by rw [hout]; rfl, by rw [hout]; rfl⟩
  · obtain ⟨n, hn⟩ : ∃ n, s.usLeft.toNat = n + 1 :=
      Nat.exists_eq_succ_of_ne_zero fun h => hus (BitVec.eq_of_toNat_eq h)
    have hreach := Reaches.wait (p := p) (d := d) hslot hn s.tick
    rw [hself, ← hn] at hreach
    obtain ⟨⟨t, hrun, ⟨hview, -⟩, -⟩, -⟩ := hreach s (.refl s) hp rfl
    obtain ⟨htst, -, -, htsub, htcnt, -, -, -, -, -, -, htus, htpresc, htpulse, -⟩ := seqView_eq hview
    exact ⟨t, hrun, htst, htsub, htcnt, htus, htpresc, htpulse⟩

/-- Settles O45: the last cycle of pulse 1079 is the end of a phase, and the "next" entry there is the beginning of the
exposure. -/
theorem exposureBeginsOrIsSkipped : Obligations.ExposureBeginsOrIsSkipped := by
  intro p d s t hr hc hst hsub hpidx hk
  have hslot : s.slot = .phase false false (.clk false) := by rw [State.slot, hst, hsub]; rfl
  have hlast : ¬ s.pidx + 1 < Config.propPulses := by rw [hpidx]; decide
  have hwait : Event.wait s.expL ∈ t.events := by
    rw [cycle_events hc hr, State.cycleEvents_phase hslot, if_pos hk, State.endEvents_prop hst hsub, if_neg hlast]
    simp
  have hview := phase_end_view hc hr hslot hk
  rw [State.advance_propEnd hst hsub hlast, State.beginExposure] at hview
  by_cases hexp : s.expL = 0#32
  · rw [if_pos hexp] at hview
    obtain ⟨htst, htpidx, -, htsub, htcnt, -⟩ := seqView_eq hview
    exact ⟨hwait, htsub, htpidx, htcnt, fun _ => htst, fun h => absurd hexp h⟩
  · rw [if_neg hexp] at hview
    obtain ⟨htst, htpidx, -, htsub, htcnt, -, -, -, -, -, -, htus, htpresc, -⟩ := seqView_eq hview
    exact ⟨hwait, htsub, htpidx, htcnt, fun h => absurd h hexp, fun _ => ⟨htst, htus, htpresc⟩⟩

/-! ### The packing law -/

theorem packSample_toNat (S : Half) : (packSample S).toNat = 4 * S.toNat % 65536 := by
  rw [packSample, BitVec.toNat_shiftLeft, Nat.shiftLeft_eq, Nat.mul_comm]
  rfl

/-- The two bytes of a packed sample, the high one first, are the packed sample (R82). -/
theorem highByte_append_lowByte (P : Half) : highByte P ++ lowByte P = P :=
  (BitVec.extractLsb'_append_extractLsb'_eq_extractLsb' (start₁ := 0) (len₁ := 8) (len₂ := 8) rfl).trans
    BitVec.extractLsb'_eq_self

theorem highByte_toNat (P : Half) : (highByte P).toNat = P.toNat / 256 := by
  rw [highByte, BitVec.extractLsb'_toNat, Nat.shiftRight_eq_div_pow]
  exact Nat.mod_eq_of_lt (by omega)

theorem lowByte_toNat (P : Half) : (lowByte P).toNat = P.toNat % 256 := by
  rw [lowByte, BitVec.extractLsb'_toNat, Nat.shiftRight_zero]

/-- Settles O39: a shift left by 2 moves two 0 bits in, and the bytes are those of any 16-bit word. -/
theorem packingLaw : Obligations.PackingLaw := by
  intro S
  refine ⟨BitVec.shiftLeft_eq_concat_of_lt (by decide), packSample_toNat S, fun h => ?_, highByte_append_lowByte _,
    highByte_toNat _, lowByte_toNat _⟩
  rw [packSample_toNat]
  exact Nat.mod_eq_of_lt (by omega)

end Sys2Proof.Machine

/-! PROOFS. The flush (spec/41_flush.md R170 to R177) from its parts: the two runs of FLUSH_PULSES clock pulses with the SI
pulse between them. `Reaches.flush` is its law; BOOT leads to it after a reset, and an accepted INIT from IDLE. The counts of
its trace are those of its pulses. -/

namespace Sys2Proof.Machine

/-! ### The trace -/

theorem length_pulsesTrace (n : Nat) : (pulsesTrace n).length = 2 * n := by
  simp [pulsesTrace, clkPulseTrace, Nat.mul_comm]

/-- Each pulse of a run counts alike. -/
theorem countP_pulsesTrace (f : Event → Bool) (n : Nat) : (pulsesTrace n).countP f = n * clkPulseTrace.countP f := by
  simp [pulsesTrace, List.countP_flatten]

/-- The flush trace counts its pulses, FLUSH_PULSES of them on either side, and its SI pulse (R172). -/
theorem countP_flushTrace (f : Event → Bool) :
    flushTrace.countP f = 2164 * clkPulseTrace.countP f + siPulseTrace.countP f := by
  rw [flushTrace, List.countP_append, List.countP_append, countP_pulsesTrace]
  simp only [Config.flushPulses]
  omega

/-- Settles O50: a clock pulse has two events, both of lines and one of them a rising edge; an SI pulse has four line events,
one rising edge and the one rise of SI. -/
theorem flushTraceCounts : Obligations.FlushTraceCounts := by
  refine ⟨?_, countP_flushTrace _, countP_flushTrace _, countP_flushTrace _⟩
  rw [flushTrace, List.length_append, List.length_append, length_pulsesTrace]
  rfl

/-! ### INIT -/

/-- Settles O11: IDLE is not busy, so INIT is accepted. -/
theorem idleInitStartsTheFlush : Obligations.IdleInitStartsTheFlush := by
  intro s hi
  have hb : s.busy = false := State.busy_eq_false.2 hi
  show execInit s = _
  rw [execInit_eq, hb]
  rfl

/-! ### The runs of pulses -/

section
variable {p : Params} {d : Nat → Draws} {s : State} {q : Fsm}

/-- The next entry after a flush pulse that is not the last of its run: CLOCK high of the next pulse, which counts an edge
(R173, R175). -/
theorem State.advance_flushPulse (hq : q = .flushA ∨ q = .flushB) {j : Nat} (hj : j + 1 < Config.flushPulses)
    (c : Word) : (s.placed q 2 j 0 c).advance = s.placed q 1 (j + 1) 0 (c + 1#32) := by
  rcases hq with rfl | rfl <;> exact if_pos hj

/-- Only the last pulse of a flush run can end with an event (R175). -/
theorem State.endEvents_flushPulse (hq : q = .flushA ∨ q = .flushB) {j : Nat} (hj : j + 1 < Config.flushPulses)
    (c : Word) : (s.placed q 2 j 0 c).endEvents = [] := by
  rcases hq with rfl | rfl
  · rfl
  · exact if_neg fun h => h.2 hj

/-- One flush pulse, from its CLOCK high to what follows its CLOCK low. -/
theorem Reaches.flushPulse (hq : q = .flushA ∨ q = .flushB) (j : Nat) (c : Word) (k : Nat) :
    Reaches p d (2 * p.tHalf) k (s.placed q 1 j 0 c) (s.placed q 2 j 0 c).advance
      (clkPulseTrace ++ (s.placed q 2 j 0 c).endEvents) := by
  have hlow : (s.placed q 1 j 0 c).advance = s.placed q 2 j 0 c := by rcases hq with rfl | rfl <;> rfl
  have hrun := Reaches.clkPulse (p := p) (d := d) (s := s.placed q 1 j 0 c) (hq.imp id .inl) rfl rfl k
  rwa [hlow] at hrun

/-- A flush pulse that is not the last of its run leads to the next. -/
theorem Reaches.flushPulse_next (hq : q = .flushA ∨ q = .flushB) {j : Nat} (hj : j + 1 < Config.flushPulses) (c : Word)
    (k : Nat) :
    Reaches p d (2 * p.tHalf) k (s.placed q 1 j 0 c) (s.placed q 1 (j + 1) 0 (c + 1#32)) clkPulseTrace := by
  have hrun := Reaches.flushPulse (p := p) (d := d) (s := s) hq j c k
  rwa [State.advance_flushPulse hq hj, State.endEvents_flushPulse hq hj, List.append_nil] at hrun

/-- A flush run: FLUSH_PULSES pulses, of which the first has counted its edge, up to what follows the last. -/
theorem Reaches.flushRun (hq : q = .flushA ∨ q = .flushB) (c : Word) (k : Nat) :
    Reaches p d (2164 * p.tHalf) k (s.placed q 1 0 0 (c + 1#32)) (s.placed q 2 1081 0 (c + 1082#32)).advance
      (pulsesTrace Config.flushPulses ++ (s.placed q 2 1081 0 (c + 1082#32)).endEvents) := by
  have hpulses := Reaches.iterate_then (p := p) (d := d) (k := k) (m := 1081)
    (st := fun j => s.placed q 1 j 0 (c + BitVec.ofNat 32 (j + 1))) (len := fun _ => 2 * p.tHalf)
    (ev := fun _ => clkPulseTrace) (fun j hj => ?_) (Reaches.flushPulse hq 1081 _ _)
  · have hlen : ((List.range (1081 + 1)).map fun _ => 2 * p.tHalf).sum = 2164 * p.tHalf := by
      rw [List.map_const', List.sum_replicate, List.length_range, smul_eq_mul]
      omega
    have hev : (List.range (1081 + 1)).flatMap (fun _ => clkPulseTrace) = pulsesTrace Config.flushPulses := by
      rw [List.flatMap, List.map_const', List.length_range, pulsesTrace]
    rw [hlen, hev] at hpulses
    exact hpulses
  · have hnext : j + 1 < Config.flushPulses := Nat.succ_lt_succ hj
    rw [← add_ofNat_succ c (j + 1)]
    exact Reaches.flushPulse_next hq hnext _ _

/-! ### The whole flush -/

/-- `s` at the end of a flush that began with `c` edges counted: 2165 more are, and FLUSHED is set (R175, R177). -/
def State.flushDone (s : State) (c : Word) : State := (s.setFlushed true).placed .idle 0 0 0 (c + 2165#32)

/-- The law of a whole flush, from CLOCK high of its first pulse on (R172 to R175). -/
theorem Reaches.flush (c : Word) (k : Nat) :
    Reaches p d (4332 * p.tHalf) k (s.placed .flushA 1 0 0 (c + 1#32)) (s.flushDone c) (flushTrace ++ [.done]) := by
  have hfirst : Reaches p d (2164 * p.tHalf) k (s.placed .flushA 1 0 0 (c + 1#32))
      (s.placed .flushSi 0 0 0 (c + 1082#32)) (pulsesTrace Config.flushPulses) := by
    rw [← List.append_nil (pulsesTrace _)]
    exact Reaches.flushRun (.inl rfl) c k
  have hmarker : ∀ k, Reaches p d (4 * p.tHalf) k (s.placed .flushSi 0 0 0 (c + 1082#32))
      (s.placed .flushB 1 0 0 (c + 1083#32 + 1#32)) siPulseTrace := by
    intro k
    have hcount : c + 1082#32 + 1#32 = c + 1083#32 := BitVec.add_assoc _ _ _
    rw [← hcount]
    exact Reaches.siMarker (.inl rfl) _ k
  have hsecond : ∀ k, Reaches p d (2164 * p.tHalf) k (s.placed .flushB 1 0 0 (c + 1083#32 + 1#32)) (s.flushDone c)
      (pulsesTrace Config.flushPulses ++ [.done]) := by
    intro k
    have hcount : c + 1083#32 + 1082#32 = c + 2165#32 := BitVec.add_assoc _ _ _
    rw [State.flushDone, ← hcount]
    exact Reaches.flushRun (.inr rfl) _ k
  have hrun := (hfirst.comp (hmarker _)).comp (hsecond _)
  have hlen : 2164 * p.tHalf + 4 * p.tHalf + 2164 * p.tHalf = 4332 * p.tHalf := by omega
  rwa [hlen, ← List.append_assoc] at hrun

/-- A state that goes the course of `s.flushDone c`, field by field. -/
theorem SameCourse.flushDone {t : State} {c : Word} (h : SameCourse t (s.flushDone c)) :
    t.st = .idle ∧ t.sub = 0 ∧ t.pidx = 0 ∧ t.tcnt = 0 ∧ t.flushed = true ∧ t.pulseCount = c + 2165#32 ∧
      t.frameCount = s.frameCount ∧ t.hostView = s.hostView ∧ t.mem = s.mem := by
  obtain ⟨hview, hhost, hmem⟩ := h
  obtain ⟨hst, hpidx, -, hsub, htcnt, -, -, -, -, -, -, -, -, hpulse, hframe, hflushed⟩ := seqView_eq hview
  exact ⟨hst, hsub, hpidx, htcnt, hflushed, hpulse, hframe, hhost, hmem⟩

/-! ### After a reset -/

/-- BOOT (R171, R321): SI and CLOCK are set low, one phase each, and then the flush begins. -/
theorem Reaches.boot (hst : s.st = .boot) (hsub : s.sub = 0) (h0 : s.tcnt = 0) (k : Nat) :
    Reaches p d (2 * p.tHalf) k s (s.placed .flushA 1 0 0 (s.pulseCount + 1#32)) [.si false, .clk false] := by
  have hslot : s.slot = .phase false false (.si false) := by rw [State.slot, hst, hsub]; rfl
  have hend : s.endEvents = [] := by rw [State.endEvents, hst]
  have hnext : s.advance = s.placed .boot 1 0 0 s.pulseCount := by
    rw [State.advance, hst]
    exact if_pos hsub
  have hsi := Reaches.phase (p := p) (d := d) hslot h0 k
  rw [hend, hnext] at hsi
  have hclk : ∀ k, Reaches p d p.tHalf k (s.placed .boot 1 0 0 s.pulseCount)
      (s.placed .flushA 1 0 0 (s.pulseCount + 1#32)) [.clk false] :=
    fun k => Reaches.phase (s := s.placed .boot 1 0 0 s.pulseCount) rfl rfl k
  rw [Nat.two_mul]
  exact hsi.comp (hclk _)

/-! ### After a command -/

/-- A cycle in IDLE with one transaction and nothing else shows nothing and leaves the block as the operation does. -/
theorem cycle_onlyTransaction {x : Transaction} {u : State} (hi : s.st = .idle) (hp : s.onlyTransaction x)
    (hx : exec (decode x) s = .next u) (d : Draws) :
    ∃ t, cycle p d s = .next t ∧ SameCourse t u ∧ t.pending = [] ∧ t.tick = s.tick + 1 ∧ t.events = [] := by
  have hm := State.stimulus_cons hp
  obtain ⟨u', hu', hc⟩ := cycle_transaction (x := x) p d (by rw [hm]) (by rw [hm]) (by rw [hm]; rfl)
  obtain rfl : u = u' := by rw [hx] at hu'; cases hu'; rfl
  refine ⟨_, hc, ?_, ?_, rfl, by simp [State.cycleEvents, State.slot_idle hi]⟩
  · rw [State.endCycle_idle _ _ _ _ _ hi, hm]
    exact ⟨rfl, rfl, rfl⟩
  · rw [State.endCycle_pending, hp]
    rfl

/-- A command accepted in IDLE and the run of the sequence it starts: the command's own cycle comes first and shows
nothing, and BUSY is 1 in every cycle after it (R324). -/
theorem runCycles_onlyTransaction {x : Transaction} {u v : State} {n : Nat} {ev : List Event} (hi : s.st = .idle)
    (hp : s.onlyTransaction x) (hx : exec (decode x) s = .next u) (h : Reaches p d n (s.tick + 1) u v ev) :
    (∃ t, runCycles p d (1 + n) s = some (t, ev) ∧ SameCourse t v) ∧
      ∀ j, 1 ≤ j → j < 1 + n → ∃ t e, runCycles p d j s = some (t, e) ∧ t.busy = true := by
  obtain ⟨w, hc, hcourse, hpw, htick, hev⟩ := cycle_onlyTransaction (p := p) hi hp hx (d s.tick)
  obtain ⟨⟨t, hrun, ht, -⟩, hbusy⟩ := h w hcourse hpw htick
  refine ⟨⟨t, ?_, ht⟩, fun j h1 hj => ?_⟩
  · rw [Nat.add_comm, runCycles_succ _ _ _ hc, hev, hrun]
    rfl
  · obtain ⟨i, rfl⟩ : ∃ i, j = i + 1 := Nat.exists_eq_add_of_le' h1
    obtain ⟨y, e, hy, hyb⟩ := hbusy i (by omega)
    exact ⟨y, w.events ++ e, by rw [runCycles_succ _ _ _ hc, hy]; rfl, hyb⟩

end

/-- Settles O47: BOOT and the flush, one after the other, from PULSE_COUNT 0 and FRAME_COUNT 0. -/
theorem bootFlush : Obligations.BootFlush := by
  intro p d s hview hp
  obtain ⟨hst, -, -, hsub, htcnt, -, -, -, -, -, -, -, -, hpulse, hframe, -⟩ := seqView_eq hview
  have hreach := (Reaches.boot (p := p) (d := d) hst hsub htcnt s.tick).comp (Reaches.flush _ _)
  have hlen : 2 * p.tHalf + 4332 * p.tHalf = 4334 * p.tHalf := by omega
  rw [hlen, hpulse, ← List.append_assoc] at hreach
  obtain ⟨⟨t, hrun, hcourse, -⟩, hbusy⟩ := hreach s (.refl s) hp rfl
  obtain ⟨htst, htsub, htpidx, httcnt, htflushed, htpulse, htframe, hthost, htmem⟩ := hcourse.flushDone
  exact ⟨⟨t, hrun, htst, htsub, htpidx, httcnt, htflushed, htpulse, htframe.trans hframe, hthost, htmem⟩, hbusy⟩

/-- Settles O48: INIT is accepted and leaves the state where the flush begins, with one edge counted. -/
theorem initRunsTheFlush : Obligations.InitRunsTheFlush := by
  intro p d s hi hp
  have hx : exec (decode 0x800000001#36) s =
      .next (((s.setFlushed false).drive 0#32).placed .flushA 1 0 0 (s.pulseCount + 1#32)) :=
    (congrArg (exec · s) (by decide : decode 0x800000001#36 = .init)).trans (idleInitStartsTheFlush s hi)
  obtain ⟨⟨t, hrun, hcourse⟩, hbusy⟩ := runCycles_onlyTransaction (d := d) hi hp hx (Reaches.flush (p := p) _ _)
  obtain ⟨hst, -, -, -, hflushed, hpulse, hframe, hhost, hmem⟩ := hcourse.flushDone
  exact ⟨⟨t, hrun, hst, hflushed, hpulse, hframe, hhost, hmem⟩, hbusy⟩

end Sys2Proof.Machine

/-! PROOFS. The capture from the command to `Done` (spec/42_capture.md R190 to R198): its run is that of `capture_run`, and the
counts of its trace are those of its primitives, none of which depends on the configuration or the answers (R198). -/

namespace Sys2Proof.Machine

/-- Settles O49: `capture_run` gives the run and BUSY, `captured_counts` and `captured_mem` the state it ends in. -/
theorem captureRunsToDone : Obligations.CaptureRunsToDone := by
  intro p d s lat hi hlen hbase hp h answers
  obtain ⟨⟨t, hrun, hview, hhost, hmem⟩, hbusy⟩ := capture_run hi hlen hbase hp h
  obtain ⟨hst, -, -, -, -, -, -, -, -, -, -, -, -, hpulse, hframe, hflushed⟩ := seqView_eq hview
  obtain ⟨hst', hpulse', hframe', hflushed', hhost'⟩ := State.captured_counts s.latch _
  rw [State.captured_mem, ← answersOf_eq] at hmem
  exact ⟨⟨t, hrun, hst.trans hst', hpulse.trans hpulse', hframe.trans hframe', hflushed.trans hflushed',
    hhost.trans hhost', hmem⟩, hbusy⟩

/-! ### The counts of the trace -/

/-- The propagation window counts its pulses, and the strobe where it fires (R145). -/
theorem countP_propTrace (f : Event → Bool) (tenL : Bool) (tidxL : Half) :
    (propTrace tenL tidxL.toNat).countP f =
      1080 * clkPulseTrace.countP f + strobeCycles tenL tidxL * [Event.trig].countP f := by
  unfold propTrace strobeCycles
  split
  · next h =>
    have hpulses : 1080 = tidxL.toNat + (Config.propPulses - tidxL.toNat) := (Nat.add_sub_of_le h.2.le).symm
    rw [List.countP_append, List.countP_append, countP_pulsesTrace, countP_pulsesTrace, hpulses, Nat.add_mul]
    omega
  · rw [countP_pulsesTrace, Nat.zero_mul, Nat.add_zero]

section
variable {f : Event → Bool} {base : Word} {n : Nat}

/-- Where READITER counts the same in every iteration, the readout loop counts it once for each answer (R196). -/
theorem countP_readTraceFrom (hiter : ∀ i ab, (readIterTrace base i ab).countP f = n) (i : Nat)
    (answers : List (Half × Half)) : (readTraceFrom base i answers).countP f = answers.length * n := by
  induction answers generalizing i with
  | nil => simp [readTraceFrom]
  | cons ab rest ih =>
    rw [readTraceFrom, List.countP_append, hiter, ih, List.length_cons, Nat.succ_mul, Nat.add_comm]

/-- The capture trace counts its parts: two SI pulses, the propagation window, the wait, 640 iterations and `Done`
(R191). -/
theorem countP_captureTrace (hiter : ∀ i ab, (readIterTrace base i ab).countP f = n) (expL : Word) (tenL : Bool)
    (tidxL : Half) {answers : List (Half × Half)} (hlen : answers.length = 640) :
    (captureTrace expL base tenL tidxL answers).countP f =
      2 * siPulseTrace.countP f + 1080 * clkPulseTrace.countP f + [.wait expL, .done].countP f + 640 * n +
        strobeCycles tenL tidxL * [Event.trig].countP f := by
  have hends : [Event.wait expL, .done].countP f = [Event.wait expL].countP f + [Event.done].countP f :=
    List.countP_append (l₁ := [Event.wait expL]) (l₂ := [.done])
  simp only [captureTrace, List.countP_append, countP_propTrace, countP_readTraceFrom hiter, hlen, hends]
  omega

end

/-- Settles O51: READITER has one sample, one rising edge and four byte writes whatever its iteration and its answer are,
and the other parts of the trace are fixed but for the strobe and the length of the wait. -/
theorem captureTraceCounts : Obligations.CaptureTraceCounts := by
  intro expL baseL tenL tidxL answers hlen ev
  have hcount : ∀ (f : Event → Bool) (n : Nat), (∀ i ab, (readIterTrace baseL i ab).countP f = n) →
      ev.countP f = 2 * siPulseTrace.countP f + 1080 * clkPulseTrace.countP f + [.wait expL, .done].countP f + 640 * n +
        strobeCycles tenL tidxL * [Event.trig].countP f :=
    fun f n hiter => countP_captureTrace hiter expL tenL tidxL hlen
  have hclk : ∀ i ab, (readIterTrace baseL i ab).count (.clk true) = 1 := fun _ _ => rfl
  have htrig : ev.count .trig = _ := hcount _ 0 fun _ _ => rfl
  have hwaitL : ev.count (.wait expL) = _ := hcount _ 0 fun _ _ => rfl
  refine ⟨hcount _ 1 fun _ _ => rfl, hcount _ 1 hclk, hcount _ 0 fun _ _ => rfl, hcount _ 4 fun _ _ => rfl, ?_,
    hcount _ 0 fun _ _ => rfl, ?_, hcount _ 0 fun _ _ => rfl, List.getLast?_concat, ?_⟩
  · simpa [siPulseTrace, clkPulseTrace, strobeCycles] using htrig
  · simpa [siPulseTrace, clkPulseTrace] using hwaitL
  · exact (countP_readTraceFrom hclk 0 answers).trans (by rw [hlen])

end Sys2Proof.Machine

/-! PROOFS. With a fair sampler every running sequence ends (spec/42_capture.md R199, spec/70_reset_and_hazards.md R322). The
positions of a sequence have an order (`State.place`) in which every "next" entry goes up; within a slot the timer, the
prescaler or the phase counter goes on. `State.workLeft` puts the two together as what is left to do, which every cycle but
one of an unanswered request lessens, and fairness lets only finitely many of those come in a row. -/

namespace Sys2Proof.Machine

section
variable {p : Params} {d : Draws} {s t : State}

/-! ### The order of the positions -/

/-- The number of a position: the state's code first, then the pulse, the iteration and the slot (R33, R34). -/
def State.place (s : State) : Nat :=
  ((s.st.code.toNat * Config.flushPulses + s.pidx) * Config.readIters + s.iter) * 7 + s.sub

/-- One more than the number of the last legal position. -/
def placeEnd : Nat := 10 * Config.flushPulses * Config.readIters * 7

theorem State.place_eq (s : State) : s.place = ((s.st.code.toNat * 1082 + s.pidx) * 640 + s.iter) * 7 + s.sub := rfl

theorem State.place_enter (s : State) (q : Fsm) (sub pidx iter : Nat) :
    (s.enter q sub pidx iter).place = ((q.code.toNat * 1082 + pidx) * 640 + iter) * 7 + sub := rfl

theorem State.posOk.bounds (h : s.posOk) : s.pidx < 1082 ∧ s.iter < 640 ∧ s.sub < 7 := by
  unfold State.posOk at h
  cases hst : s.st <;> simp only [hst, Config.flushPulses, Config.propPulses, Config.readIters] at h <;> omega

theorem State.posOk.place_lt (h : s.posOk) : s.place < placeEnd := by
  obtain ⟨hpidx, hiter, hsub⟩ := h.bounds
  have hcode : s.st.code.toNat < 10 := by cases s.st <;> decide
  rw [State.place_eq, show placeEnd = 10 * 1082 * 640 * 7 from rfl]
  omega

theorem siPulseSlot_ne_none {n : Nat} (h : n ≤ 3) : siPulseSlot n ≠ .none := by
  interval_cases n <;> simp [siPulseSlot]

theorem clkPulseSlot_ne_none {n : Nat} (h1 : 1 ≤ n) (h2 : n ≤ 2) : clkPulseSlot n ≠ .none := by
  interval_cases n <;> simp [clkPulseSlot]

/-- Every legal position but IDLE has a slot (R55). -/
theorem State.posOk.slot_ne_none (h : s.posOk) (hi : s.st ≠ .idle) : s.slot ≠ .none := by
  unfold State.posOk at h
  unfold State.slot
  generalize s.sub = n at *
  cases hst : s.st with
  | idle => exact absurd hst hi
  | boot =>
    obtain ⟨hn, -⟩ : n ≤ 1 ∧ _ := by simpa only [hst] using h
    interval_cases n <;> simp [slotAt, bootSlot]
  | flushA | flushB =>
    simp only [hst] at h
    exact clkPulseSlot_ne_none h.1 h.2.1
  | flushSi | capSiStart | capSiStop =>
    simp only [hst] at h
    exact siPulseSlot_ne_none h.1
  | capProp =>
    obtain ⟨hn, -⟩ : n ≤ 2 ∧ _ := by simpa only [hst] using h
    interval_cases n <;> simp [slotAt, capPropSlot, clkPulseSlot]
  | capExpo =>
    simp only [hst] at h
    simp [h.1, slotAt]
  | capRead =>
    obtain ⟨hn, -⟩ : n ≤ 6 ∧ _ := by simpa only [hst] using h
    interval_cases n <;> simp [slotAt, capReadSlot, clkPulseSlot]

/-- A position of a later state is later. -/
theorem State.posOk.place_lt_of_code (hs : s.posOk) (h : s.st.code.toNat < t.st.code.toNat) : s.place < t.place := by
  obtain ⟨hpidx, hiter, hsub⟩ := hs.bounds
  rw [s.place_eq, t.place_eq]
  omega

/-- Every "next" entry that does not end the sequence goes up in the order of the positions: to a later state, or to a later
pulse, iteration or slot of the same state. -/
theorem NextEntry.place_lt (h : NextEntry s t) (hs : s.posOk) (ht : t.st ≠ .idle) : s.place < t.place := by
  have hpos := hs
  unfold State.posOk at hpos
  cases h with
  | flushBEnd | readEnd => exact absurd rfl ht
  | bootEnd hst | flushAEnd hst | flushSiEnd hst | siStopEnd hst | propEndSkip hst | propEndWait hst | expoEnd hst =>
    exact hs.place_lt_of_code (by simp [hst, Fsm.code])
  | siStartEnd hst => exact hs.place_lt_of_code (by simp [hst, State.beginProp_eq, Fsm.code])
  | flushLow hst | flushPulse hst =>
    rw [State.place_eq, State.place_enter]
    rcases hst with hst | hst <;> simp only [hst] at hpos ⊢ <;> omega
  | siPhase hst =>
    rw [State.place_eq, State.place_enter]
    rcases hst with hst | hst | hst <;> simp only [hst] at hpos ⊢ <;> omega
  | propPulse hst =>
    rw [State.beginProp_eq, State.place_eq, State.place_enter]
    simp only [hst] at hpos ⊢
    omega
  | bootClock hst | propPhase hst | readSlot hst | readIter hst =>
    rw [State.place_eq, State.place_enter]
    simp only [hst] at hpos ⊢
    omega

/-! ### The work left -/

/-- What is left to do, the positions to come first and then the cycles of the running slot: microseconds, cycles of the
microsecond, cycles of the phase. -/
def State.workLeft (s : State) (p : Params) : Nat ×ₗ Nat ×ₗ Nat ×ₗ Nat :=
  toLex (placeEnd - s.place, toLex (s.usLeft.toNat, toLex (p.clkPerUs - s.presc, p.tHalf - s.tcnt)))

theorem workLeft_view (h : s.seqView = t.seqView) : s.workLeft p = t.workLeft p := by
  obtain ⟨hst, hpidx, hiter, hsub, htcnt, -, -, -, -, -, -, hus, hpresc, -⟩ := seqView_eq h
  simp only [State.workLeft, State.place, hst, hpidx, hiter, hsub, htcnt, hus, hpresc]

theorem State.workLeft_lt_iff : t.workLeft p < s.workLeft p ↔
    placeEnd - t.place < placeEnd - s.place ∨ placeEnd - t.place = placeEnd - s.place ∧
      (t.usLeft.toNat < s.usLeft.toNat ∨ t.usLeft.toNat = s.usLeft.toNat ∧
        (p.clkPerUs - t.presc < p.clkPerUs - s.presc ∨ p.clkPerUs - t.presc = p.clkPerUs - s.presc ∧
          p.tHalf - t.tcnt < p.tHalf - s.tcnt)) := by
  simp only [State.workLeft, Prod.Lex.toLex_lt_toLex]

/-- Going up in the order of the positions lessens the work, whatever happens to the counters. -/
theorem State.workLeft_lt_of_place (hs : s.posOk) (h : s.place < t.place) : t.workLeft p < s.workLeft p :=
  State.workLeft_lt_iff.2 (.inl (Nat.sub_lt_sub_left hs.place_lt h))

/-- A cycle of a running sequence lessens the work, unless it ends the sequence or the sampler leaves its request
unanswered. -/
theorem SlotCycle.workLeft_lt (h : SlotCycle p d s t) (hinv : State.Inv p s) (hi : s.st ≠ .idle) (ht : t.st ≠ .idle)
    (hv : s.slot = .sample → d.smpValid = true) : t.workLeft p < s.workLeft p := by
  cases h with
  | noSlot hslot => exact absurd hslot (hinv.pos.slot_ne_none hi)
  | unanswered hslot hno => simp [hv hslot] at hno
  | phaseHeld hslot hk =>
    have hlt := hinv.tcnt_lt
    have hless : p.tHalf - (s.tcnt + 1) < p.tHalf - s.tcnt := by omega
    exact State.workLeft_lt_iff.2 (.inr ⟨rfl, .inr ⟨rfl, .inr ⟨rfl, hless⟩⟩⟩)
  | prescCounts hslot hk =>
    have hlt := hinv.presc_lt
    have hless : p.clkPerUs - (s.presc + 1) < p.clkPerUs - s.presc := by omega
    exact State.workLeft_lt_iff.2 (.inr ⟨rfl, .inr ⟨rfl, .inl hless⟩⟩)
  | usCounts hslot =>
    obtain ⟨hus, -⟩ := hinv.timer_runs (State.slot_wait hslot)
    have hless : (s.usLeft - 1#32).toNat < s.usLeft.toNat := by bv_omega
    exact State.workLeft_lt_iff.2 (.inr ⟨rfl, .inl hless⟩)
  | phaseEnds | strobe => exact State.workLeft_lt_of_place hinv.pos ((nextEntry_advance hi).place_lt hinv.pos ht)
  | answered =>
    exact State.workLeft_lt_of_place hinv.pos ((nextEntry_advance (s := s.takeSample p d) hi).place_lt hinv.pos ht)
  | stored lane =>
    exact State.workLeft_lt_of_place hinv.pos ((nextEntry_advance (s := s.storeLane lane) hi).place_lt hinv.pos ht)
  | waited =>
    exact State.workLeft_lt_of_place hinv.pos ((nextEntry_advance (s := s.countUs) hi).place_lt hinv.pos ht)

/-! ### Done -/

/-- A cycle that shows `Done` shows it once and last (R175, R197). -/
theorem State.cycleEvents_done (h : Event.done ∈ s.cycleEvents p d) :
    ∃ ev, s.cycleEvents p d = ev ++ [.done] ∧ Event.done ∉ ev := by
  have hend : Event.done ∈ s.endEvents → s.endEvents = [.done] := by
    unfold State.endEvents
    cases s.st <;> simp
  cases hslot : s.slot with
  | none | trig | sample | wait => simp [State.cycleEvents, hslot] at h
  | phase c v e =>
    have hne := State.phase_event_ne_done hslot
    rw [State.cycleEvents_phase hslot] at h ⊢
    refine ⟨if s.tcnt = 0 then [e] else [], ?_, by split <;> simp [hne]⟩
    have hlast : Event.done ∈ if s.tcnt + 1 = p.tHalf then s.endEvents else [] := by
      rcases List.mem_append.1 h with h | h
      · split at h <;> simp [hne] at h
      · exact h
    split at hlast
    · next hk => rw [if_pos hk, hend hlast]
    · simp at hlast
  | write lane =>
    have hlast : Event.done ∈ s.endEvents := by simpa [State.cycleEvents, hslot] using h
    exact ⟨[.wr (s.laneAddr lane) (s.laneData lane)], by simp [State.cycleEvents, hslot, hend hlast], by simp⟩

end

/-! ### Runs that end -/

section
variable {p : Params} {d : Nat → Draws} {s t : State} {n : Nat} {ev : List Event}

/-- Some run from `s` ends in IDLE with `Done` as its last event and none before. -/
def EndsInDone (p : Params) (d : Nat → Draws) (s : State) : Prop :=
  ∃ n t ev, runCycles p d n s = some (t, ev ++ [.done]) ∧ t.st = .idle ∧ Event.done ∉ ev

theorem EndsInDone.after (h : EndsInDone p d t) (hrun : runCycles p d n s = some (t, ev)) (hev : Event.done ∉ ev) :
    EndsInDone p d s := by
  obtain ⟨m, u, e, hrun', hu, he⟩ := h
  refine ⟨n + m, u, ev ++ e, ?_, hu, by simp [hev, he]⟩
  rw [runCycles_add _ _ _ hrun, hrun']
  simp

/-- What comes after a part of a fair run is fair. -/
theorem SamplerFair.after (h : SamplerFair p d s) (hrun : runCycles p d n s = some (t, ev)) : SamplerFair p d t := by
  intro m u e hu hreq
  refine h (n + m) u (ev ++ e) ?_ hreq
  rw [runCycles_add _ _ _ hrun, hu]
  rfl

theorem State.Inv.run (h : State.Inv p s) (hrun : runCycles p d n s = some (t, ev)) : State.Inv p t := by
  induction n generalizing s ev with
  | zero =>
    cases hrun
    exact h
  | succ n ih =>
    cases hc : Machine.cycle p (d s.tick) s with
    | next u =>
      rw [runCycles_succ _ _ _ hc] at hrun
      obtain ⟨⟨v, e⟩, hrest, hve⟩ := Option.map_eq_some_iff.1 hrun
      cases hve
      exact ih (h.cycle hc) hrest
    | fault r => simp [runCycles, hc] at hrun
    | refused r => simp [runCycles, hc] at hrun

/-- A fair sampler answers: after finitely many cycles that show nothing and go no further, a request that stands is
answered in the cycle to come (R146, R322). -/
theorem SamplerFair.answer (h : SamplerFair p d s) (hp : s.pending = []) :
    ∃ l t, runCycles p d l s = some (t, []) ∧ SameCourse t s ∧ t.pending = [] ∧
      (t.slot = .sample → (d t.tick).smpValid = true) := by
  by_cases hslot : s.slot = .sample
  · have hanswer : ∃ k, (d (s.tick + k)).smpValid = true := h 0 s [] rfl (State.outputs_smpReq.2 hslot)
    have hsilent : ∀ j, j < Nat.find hanswer → (d (s.tick + j)).smpValid = false :=
      fun j hj => Bool.eq_false_iff.2 (Nat.find_min hanswer hj)
    obtain ⟨⟨t, hrun, hcourse, hpt, htick⟩, -⟩ := Reaches.silent (p := p) hslot hsilent s (.refl s) hp rfl
    exact ⟨_, t, hrun, hcourse, hpt, fun _ => htick ▸ Nat.find_spec hanswer⟩
  · exact ⟨0, s, rfl, .refl s, hp, fun hs => absurd hs hslot⟩

/-- By induction on the work left: the sampler answers, if asked, and the cycle after that ends the sequence with `Done` or
leaves less to do. -/
theorem SamplerFair.endsInDone (hinv : State.Inv p s) (hi : s.st ≠ .idle) (hp : s.pending = [])
    (hfair : SamplerFair p d s) : EndsInDone p d s := by
  induction hw : s.workLeft p using WellFoundedLT.induction generalizing s with
  | ind w ih =>
    obtain ⟨l, u, hrun, hcourse, hpu, hv⟩ := hfair.answer hp
    have hiu : u.st ≠ .idle := (seqView_eq hcourse.1).1 ▸ hi
    have hinvu := hinv.run hrun
    obtain ⟨t, hc, ⟨hview, -⟩, hpt, -, hev⟩ := quiet_busy_cycle (p := p) (d := d u.tick) hpu hiu
    have hslot := slotCycle_sequence p (d u.tick) u
    have hone : runCycles p d 1 u = some (t, u.cycleEvents p (d u.tick)) := by simp [runCycles_succ _ _ _ hc, hev]
    have hdone : Event.done ∈ u.cycleEvents p (d u.tick) ↔ t.st = .idle := by
      rw [hslot.done_iff hiu, (seqView_eq hview).1]
    refine EndsInDone.after ?_ hrun List.not_mem_nil
    by_cases ht : t.st = .idle
    · obtain ⟨ev, hlast, hnot⟩ := State.cycleEvents_done (hdone.2 ht)
      exact ⟨1, t, ev, hlast ▸ hone, ht, hnot⟩
    · have hless : t.workLeft p < w := by
        rw [← hw, workLeft_view hview, ← workLeft_view hcourse.1]
        exact hslot.workLeft_lt hinvu hiu ((seqView_eq hview).1 ▸ ht) hv
      have hrest := ih _ hless (hinvu.cycle hc) ht hpt ((hfair.after hrun).after hone) rfl
      exact hrest.after hone (mt hdone.1 ht)

end

/-- Settles O53: `SamplerFair.endsInDone`. -/
theorem fairSamplerBringsEverySequenceToDone : Obligations.FairSamplerBringsEverySequenceToDone :=
  fun _ _ _ hinv hi hp hfair => hfair.endsInDone hinv hi hp

end Sys2Proof.Machine

/-! PROOFS. The host operations that set no register from DATA (spec/43_host_ops.md R220 to R237): NOP, CLRERR, the reserved command
words, the writes to the read-only registers, and the reads. What each encoding decodes to is the equation of its descriptor;
each meaning is at most an update of the error flags and then the end of a write (`State.endWrite_eq`), or the answer of a read
(`State.answer_eq`). -/

namespace Sys2Proof.Machine

/-- Settles O6: each of the four meanings is the end of a write and nothing before it. -/
theorem nopAndReadOnlyWritesDoNothing : Obligations.NopAndReadOnlyWritesDoNothing := by
  intro s v
  refine ⟨?decodes, ?_, ?_, ?_, ?_⟩
  case decodes =>
    exact ⟨decodeEncodeRoundTrip .nop rfl, decode_writeStatus v, decode_writePulseCount v, decode_writeFrameCount v⟩
  all_goals exact State.endWrite_eq s

/-- A reserved command word, whatever its fields, raises CMD_ERR and ends the write (R221). -/
theorem exec_cmdRsv (op : BitVec 8) (rsv : BitVec 24) (s : State) :
    exec (.cmdRsv op rsv) s = .next (s.raiseCmdErr.drive 0#32) :=
  State.endWrite_eq s.raiseCmdErr

/-- Settles O7: every word above 3 decodes to a reserved command. -/
theorem reservedCommandSetsCmdErr : Obligations.ReservedCommandSetsCmdErr := by
  refine ⟨fun s op rsv => exec_cmdRsv op rsv s, fun s w hw => ?_⟩
  have hdec : decode (0x8#4 ++ w) = .cmdRsv (w.extractLsb' 0 8) (w.extractLsb' 8 24) :=
    (decode_writeCmd w).trans (decodeCommand_reserved hw)
  rw [hdec]
  exact exec_cmdRsv _ _ s

/-- Settles O8: the meaning clears the three flags and ends the write. -/
theorem clrerrClearsTheErrorFlags : Obligations.ClrerrClearsTheErrorFlags :=
  ⟨decodeEncodeRoundTrip .clrerr rfl, fun s => State.endWrite_eq s.clearErrs⟩

/-- Settles O9: the descriptor alone selects the read, and its meaning answers the register's word. -/
theorem readsReturnTheirRegister : Obligations.ReadsReturnTheirRegister := by
  intro s v
  refine ⟨?decodes, State.answer_eq s 0#32, State.answer_eq s s.statusWord, State.answer_eq s s.exposureUs,
    State.answer_eq s s.frameLen, State.answer_eq s s.bufBase, State.answer_eq s s.trigCtrlWord,
    State.answer_eq s s.pulseCount, State.answer_eq s s.frameCount⟩
  case decodes =>
    exact ⟨decode_readCmd v, decode_readStatus v, decode_readExposure v, decode_readFrameLen v, decode_readBufBase v,
      decode_readTrigCtrl v, decode_readPulseCount v, decode_readFrameCount v⟩

end Sys2Proof.Machine

/-! PROOFS. The check order of a CMD write (spec/60_exceptions.md R262). Words 0, 3 and those above 3 have a meaning of their
own, and so have the accepted INIT and CAPTURE; what is left is INIT and CAPTURE turned away: while busy, and CAPTURE in IDLE
with a bad argument. -/

namespace Sys2Proof.Machine

section
variable {s : State}

/-! ### What is turned away -/

/-- `lenbad` by the length as a number. -/
theorem State.lenBad_eq (s : State) : s.lenBad = decide (s.frameLen.toNat ≠ 2560) := by
  simp [State.lenBad, BitVec.toNat_eq]

/-- `addrbad` by the base as a number. -/
theorem State.addrBad_eq (s : State) : s.addrBad = decide (0xFFFFF600 < s.bufBase.toNat) := by
  simp [State.addrBad, BitVec.lt_def]

theorem exec_init_busy (hb : s.st ≠ .idle) : exec .init s = .next (s.raiseCmdErr.drive 0#32) := by
  show execInit s = _
  rw [execInit_eq, if_pos (State.busy_eq_true.2 hb)]

theorem exec_capture_busy (hb : s.st ≠ .idle) : exec .capture s = .next (s.raiseCmdErr.drive 0#32) := by
  show execCapture s = _
  rw [execCapture_eq, if_pos (State.busy_eq_true.2 hb)]

/-- CAPTURE in IDLE with a bad length, a bad base or both: both checks are made, and each raises its own flag. -/
theorem exec_capture_badArgs (hi : s.st = .idle) (hbad : s.frameLen.toNat ≠ 2560 ∨ 0xFFFFF600 < s.bufBase.toNat) :
    exec .capture s = .next ((s.raiseArgErrs (decide (s.frameLen.toNat ≠ 2560))
      (decide (0xFFFFF600 < s.bufBase.toNat))).drive 0#32) := by
  have hchecks : (s.lenBad || s.addrBad) = true := by
    rwa [State.lenBad_eq, State.addrBad_eq, Bool.or_eq_true, decide_eq_true_eq, decide_eq_true_eq]
  show execCapture s = _
  rw [execCapture_eq, State.busy_eq_false.2 hi, if_neg Bool.false_ne_true, if_pos hchecks, State.lenBad_eq,
    State.addrBad_eq]

end

/-! ### The order of the checks -/

/-- Settles O13: the words are taken one by one, INIT and CAPTURE then busy and idle, and CAPTURE in IDLE by its two
checks. -/
theorem commandCheckOrder : Obligations.CommandCheckOrder := by
  intro s w
  rcases command_cases w with rfl | rfl | rfl | rfl | hrsv
  · obtain ⟨⟨hdec, -⟩, hnop, -⟩ := nopAndReadOnlyWritesDoNothing s 0#32
    rw [hdec, hnop, if_neg (by decide), if_pos rfl]
  · have hdec : decode (0x8#4 ++ 1#32) = .init := decodeEncodeRoundTrip .init rfl
    rw [hdec, if_neg (by decide), if_neg (by decide), if_neg (by decide)]
    by_cases hi : s.st = .idle
    · rw [if_neg (not_not_intro hi), if_pos rfl, idleInitStartsTheFlush s hi]
    · rw [if_pos hi, exec_init_busy hi]
      rfl
  · have hdec : decode (0x8#4 ++ 2#32) = .capture := decodeEncodeRoundTrip .capture rfl
    rw [hdec, if_neg (by decide), if_neg (by decide), if_neg (by decide)]
    by_cases hi : s.st = .idle
    · rw [if_neg (not_not_intro hi), if_neg (by decide)]
      by_cases hbad : s.frameLen.toNat ≠ 2560 ∨ 0xFFFFF600 < s.bufBase.toNat
      · rw [if_pos hbad, exec_capture_badArgs hi hbad]
        rfl
      · obtain ⟨hlen, hbase⟩ := not_or.1 hbad
        rw [if_neg hbad, idleCaptureLatchesAndStarts s hi (BitVec.eq_of_toNat_eq (not_not.1 hlen)) (not_lt.1 hbase)]
    · rw [if_pos hi, exec_capture_busy hi]
      rfl
  · obtain ⟨hdec, hclr⟩ := clrerrClearsTheErrorFlags
    rw [hdec, hclr, if_neg (by decide), if_neg (by decide), if_pos rfl]
  · rw [reservedCommandSetsCmdErr.2 s w hrsv, if_pos hrsv]

end Sys2Proof.Machine

/-! PROOFS. A sampler that never answers (spec/70_reset_and_hazards.md R310): the sample slot waits in every cycle, and no
access of the host or of another agent moves it on; only a reset does. -/

namespace Sys2Proof.Machine

/-- What waits after a cycle that goes on: this cycle's stimulus is used up. -/
theorem cycle_pending {p : Params} {d : Draws} {s t : State} (h : cycle p d s = .next t) : t.pending = s.pending.tail := by
  obtain ⟨-, ⟨-, rfl⟩ | ⟨-, u, -, rfl⟩⟩ := cycle_next h
  · exact State.resetCycle_pending s d s.stimulus
  · exact State.endCycle_pending s u p d s.stimulus

/-- Where no stimulus that waits is a reset, the one of this cycle is none. -/
theorem State.stimulus_rst_of_pending {s : State} (h : ∀ m ∈ s.pending, m.rst = false) : s.stimulus.rst = false := by
  cases hp : s.pending with
  | nil => rw [State.stimulus_nil hp]; rfl
  | cons m rest => rw [State.stimulus_cons hp]; exact h m (by simp [hp])

section
variable {p : Params} {d : Nat → Draws} {s t : State} {n : Nat} {ev : List Event}

/-- A run that goes on, taken apart at its first cycle. -/
theorem runCycles_succ_inv (h : runCycles p d (n + 1) s = some (t, ev)) :
    ∃ u e, cycle p (d s.tick) s = .next u ∧ runCycles p d n u = some (t, e) ∧ ev = u.events ++ e := by
  cases hc : cycle p (d s.tick) s with
  | next u =>
    rw [runCycles_succ _ _ _ hc] at h
    obtain ⟨⟨v, e⟩, hrest, hve⟩ := Option.map_eq_some_iff.1 h
    cases hve
    exact ⟨u, e, rfl, hrest, rfl⟩
  | fault r => simp [runCycles, hc] at h
  | refused r => simp [runCycles, hc] at h

/-- Without an answer and without a reset, a run from the sample slot stays there and shows nothing, whatever the host and
the other agents apply: each cycle is one of waiting (`sampleHandshake`). -/
theorem runCycles_unanswered (hst : s.st = .capRead) (hsub : s.sub = 0) (hsilent : ∀ k, (d k).smpValid = false)
    (hrst : ∀ m ∈ s.pending, m.rst = false) (h : runCycles p d n s = some (t, ev)) : t.seqView = s.seqView ∧ ev = [] := by
  induction n generalizing s ev with
  | zero =>
    cases h
    exact ⟨rfl, rfl⟩
  | succ n ih =>
    obtain ⟨u, e, hc, hrest, rfl⟩ := runCycles_succ_inv h
    obtain ⟨hwait, -⟩ := sampleHandshake p _ s u (State.stimulus_rst_of_pending hrst) hc
    obtain ⟨hview, hev⟩ := hwait hst hsub (hsilent _)
    obtain ⟨hust, -, -, husub, -⟩ := seqView_eq hview
    have hurst : ∀ m ∈ u.pending, m.rst = false :=
      fun m hm => hrst m (List.mem_of_mem_tail (cycle_pending hc ▸ hm))
    obtain ⟨htview, rfl⟩ := ih (hust.trans hst) (husub.trans hsub) hurst hrest
    exact ⟨htview.trans hview, by simp [hev]⟩

end

/-- Settles O38: `runCycles_unanswered`; undisturbed cycles always go on (`Reaches.silent`); and the state after a reset is
BOOT (`resetValues`). -/
theorem silentSamplerHangsTheBlock : Obligations.SilentSamplerHangsTheBlock := by
  intro p d s hst hsub hsilent
  refine ⟨fun n t ev hrst hrun => ?stays, fun hp n => ?goesOn, fun t hr hc => ?reset⟩
  case stays =>
    obtain ⟨hview, hev⟩ := runCycles_unanswered hst hsub hsilent hrst hrun
    obtain ⟨htst, -, -, htsub, -⟩ := seqView_eq hview
    rw [hst] at htst
    rw [hsub] at htsub
    exact ⟨hview, htst, htsub, hev, State.busy_eq_true.2 (by simp [htst]),
      State.outputs_smpReq.2 (State.slot_of_sample htst htsub)⟩
  case goesOn =>
    have hslot := State.slot_of_sample hst hsub
    obtain ⟨⟨t, hrun, -⟩, -⟩ := Reaches.silent (p := p) (l := n) hslot (fun _ _ => hsilent _) s (.refl s) hp rfl
    exact ⟨t, hrun⟩
  case reset =>
    obtain ⟨hview, -⟩ := resetValues.1 p _ s t hr hc
    exact (seqView_eq hview).1

end Sys2Proof.Machine
